-- ==== Sys2Proof/Word.lean ====
section
/-! DEFINITION. The value types of the core: everything the spec gives a fixed width (00_scope.md R8, R11). -/

namespace Sys2Proof

/-- An unsigned 8-bit value: a V register, a timer, one memory cell, the immediate NN. -/
abbrev Byte := BitVec 8

/-- An unsigned 16-bit value: `pc`, `I`, a stack entry, an instruction word. -/
abbrev Word := BitVec 16

/-- The 12-bit immediate NNN. -/
abbrev Addr12 := BitVec 12

/-- The number of a general register, V0 to VF (R21). -/
abbrev Reg := Fin 16

/-- The 4-bit row count N of DXYN, 0 to 15 (R73). -/
abbrev Rows := Fin 16

/-- `u8(v) = v mod 256` (R11). -/
abbrev u8 (v : Nat) : Byte := BitVec.ofNat 8 v

/-- `u16(v) = v mod 65536` (R11). -/
abbrev u16 (v : Nat) : Word := BitVec.ofNat 16 v

/-- VF, register 15 (R13). -/
abbrev VF : Reg := 15

end Sys2Proof
end

