-- ==== Sys2Proof/Syntax.lean ====
section
/-! DEFINITION. The instructions: one constructor per row of spec/opcode_table.json, in the table's order, with exactly
the fields the row names (30_encoding.md R71 to R73). Every operand has its exact width, so every term of `Instr` is an
instruction of the hardware. -/

namespace Sys2Proof

/-- The 34 instructions (90_conflicts.md C1). A word that is none of them is UNRECOGNIZED (R76) and is no `Instr`. -/
inductive Instr where
  /-- 00E0 (R170) -/
  | cls
  /-- 00EE (R110) -/
  | ret
  /-- 1NNN (R111) -/
  | jp (nnn : Addr12)
  /-- 2NNN (R112) -/
  | call (nnn : Addr12)
  /-- 3XNN (R120) -/
  | seImm (x : Reg) (nn : Byte)
  /-- 4XNN (R121) -/
  | sneImm (x : Reg) (nn : Byte)
  /-- 5XY0 (R122) -/
  | seReg (x y : Reg)
  /-- 6XNN (R130) -/
  | ldImm (x : Reg) (nn : Byte)
  /-- 7XNN (R131) -/
  | addImm (x : Reg) (nn : Byte)
  /-- 8XY0 (R132) -/
  | ldReg (x y : Reg)
  /-- 8XY1 (R133) -/
  | orReg (x y : Reg)
  /-- 8XY2 (R134) -/
  | andReg (x y : Reg)
  /-- 8XY3 (R135) -/
  | xorReg (x y : Reg)
  /-- 8XY4 (R136) -/
  | addReg (x y : Reg)
  /-- 8XY5 (R137) -/
  | sub (x y : Reg)
  /-- 8XY6 (R138); Y is encoded and ignored -/
  | shr (x y : Reg)
  /-- 8XY7 (R139) -/
  | subn (x y : Reg)
  /-- 8XYE (R140); Y is encoded and ignored -/
  | shl (x y : Reg)
  /-- 9XY0 (R123) -/
  | sneReg (x y : Reg)
  /-- ANNN (R150) -/
  | ldI (nnn : Addr12)
  /-- BNNN (R113) -/
  | jpV0 (nnn : Addr12)
  /-- CXNN (R141) -/
  | rnd (x : Reg) (nn : Byte)
  /-- DXYN (R171) -/
  | drw (x y : Reg) (n : Rows)
  /-- EX9E (R124) -/
  | skp (x : Reg)
  /-- EXA1 (R125) -/
  | sknp (x : Reg)
  /-- FX07 (R160) -/
  | ldVxDt (x : Reg)
  /-- FX0A (R163) -/
  | ldVxK (x : Reg)
  /-- FX15 (R161) -/
  | ldDtVx (x : Reg)
  /-- FX18 (R162) -/
  | ldStVx (x : Reg)
  /-- FX1E (R151) -/
  | addI (x : Reg)
  /-- FX29 (R152) -/
  | ldF (x : Reg)
  /-- FX33 (R153) -/
  | ldB (x : Reg)
  /-- FX55 (R154) -/
  | ldIVx (x : Reg)
  /-- FX65 (R155) -/
  | ldVxI (x : Reg)
  deriving DecidableEq, Repr

end Sys2Proof
end

