-- ==== Sys2Proof/WellFormed.lean ====
section
/-! DEFINITION. Which words are instructions, said WITHOUT the decoder: by the six sets of 30_encoding.md R76, and the
fixed bits of each row of spec/opcode_table.json. `Decode.lean` follows R74 instead; that the two agree is a statement.
An `Instr` needs no check of its own: its operands carry their exact widths (R71). -/

namespace Sys2Proof

/-- The six sets of UNRECOGNIZED words of R76, by family. They are the names under which the decoder rejects a word. -/
inductive Unrecognized where
  /-- family 0 other than 0x00E0 and 0x00EE -/
  | family0
  /-- 5XYN with N ≠ 0 -/
  | family5
  /-- 8XYN with N in 8, 9, A, B, C, D, F -/
  | family8
  /-- 9XYN with N ≠ 0 -/
  | family9
  /-- EXNN with NN not 9E or A1 -/
  | familyE
  /-- FXNN with NN none of 07, 0A, 15, 18, 1E, 29, 33, 55, 65 -/
  | familyF
  deriving DecidableEq, Repr

/-- Membership of a word in one of the sets of R76, in plain arithmetic on the word. -/
def Unrecognized.holds : Unrecognized → Word → Bool
  | .family0, w => w.toNat / 4096 == 0x0 && w.toNat != 0x00E0 && w.toNat != 0x00EE
  | .family5, w => w.toNat / 4096 == 0x5 && w.toNat % 16 != 0
  | .family8, w => w.toNat / 4096 == 0x8 && [0x8, 0x9, 0xA, 0xB, 0xC, 0xD, 0xF].contains (w.toNat % 16)
  | .family9, w => w.toNat / 4096 == 0x9 && w.toNat % 16 != 0
  | .familyE, w => w.toNat / 4096 == 0xE && w.toNat % 256 != 0x9E && w.toNat % 256 != 0xA1
  | .familyF, w => w.toNat / 4096 == 0xF &&
      !([0x07, 0x0A, 0x15, 0x18, 0x1E, 0x29, 0x33, 0x55, 0x65].contains (w.toNat % 256))

/-- The sets whose words R77 calls decode-ambiguous: the source does not say that its decoder tests those bits. -/
def Unrecognized.ambiguous : Unrecognized → Bool
  | .family0 | .family5 | .family9 => true
  | .family8 | .familyE | .familyF => false

/-- A word is well-formed, an instruction of the hardware, when it is in none of the six sets of R76. -/
def wellFormed (w : Word) : Bool :=
  !(Unrecognized.holds .family0 w || Unrecognized.holds .family5 w || Unrecognized.holds .family8 w ||
    Unrecognized.holds .family9 w || Unrecognized.holds .familyE w || Unrecognized.holds .familyF w)

/-- A fixed bit field of a row of spec/opcode_table.json. -/
structure FixedField where
  hi : Nat
  lo : Nat
  value : Nat
  deriving DecidableEq, Repr

/-- A row of spec/opcode_table.json: its mnemonic and its fixed bits. -/
structure OpcodeRow where
  mnemonic : String
  fixed : List FixedField
  deriving DecidableEq, Repr

/-- The word has every fixed bit of the row. -/
def OpcodeRow.admits (row : OpcodeRow) (w : Word) : Prop :=
  ∀ f ∈ row.fixed, w.toNat / 2 ^ f.lo % 2 ^ (f.hi + 1 - f.lo) = f.value

/-- The row of spec/opcode_table.json of an instruction. -/
def Instr.row : Instr → OpcodeRow
  | .cls => ⟨"CLS", [⟨15, 0, 0xe0⟩]⟩
  | .ret => ⟨"RET", [⟨15, 0, 0xee⟩]⟩
  | .jp _ => ⟨"JP", [⟨15, 12, 0x1⟩]⟩
  | .call _ => ⟨"CALL", [⟨15, 12, 0x2⟩]⟩
  | .seImm _ _ => ⟨"SE_imm", [⟨15, 12, 0x3⟩]⟩
  | .sneImm _ _ => ⟨"SNE_imm", [⟨15, 12, 0x4⟩]⟩
  | .seReg _ _ => ⟨"SE_reg", [⟨3, 0, 0x0⟩, ⟨15, 12, 0x5⟩]⟩
  | .ldImm _ _ => ⟨"LD_imm", [⟨15, 12, 0x6⟩]⟩
  | .addImm _ _ => ⟨"ADD_imm", [⟨15, 12, 0x7⟩]⟩
  | .ldReg _ _ => ⟨"LD_reg", [⟨3, 0, 0x0⟩, ⟨15, 12, 0x8⟩]⟩
  | .orReg _ _ => ⟨"OR", [⟨3, 0, 0x1⟩, ⟨15, 12, 0x8⟩]⟩
  | .andReg _ _ => ⟨"AND", [⟨3, 0, 0x2⟩, ⟨15, 12, 0x8⟩]⟩
  | .xorReg _ _ => ⟨"XOR", [⟨3, 0, 0x3⟩, ⟨15, 12, 0x8⟩]⟩
  | .addReg _ _ => ⟨"ADD_reg", [⟨3, 0, 0x4⟩, ⟨15, 12, 0x8⟩]⟩
  | .sub _ _ => ⟨"SUB", [⟨3, 0, 0x5⟩, ⟨15, 12, 0x8⟩]⟩
  | .shr _ _ => ⟨"SHR", [⟨3, 0, 0x6⟩, ⟨15, 12, 0x8⟩]⟩
  | .subn _ _ => ⟨"SUBN", [⟨3, 0, 0x7⟩, ⟨15, 12, 0x8⟩]⟩
  | .shl _ _ => ⟨"SHL", [⟨3, 0, 0xe⟩, ⟨15, 12, 0x8⟩]⟩
  | .sneReg _ _ => ⟨"SNE_reg", [⟨3, 0, 0x0⟩, ⟨15, 12, 0x9⟩]⟩
  | .ldI _ => ⟨"LD_I", [⟨15, 12, 0xa⟩]⟩
  | .jpV0 _ => ⟨"JP_V0", [⟨15, 12, 0xb⟩]⟩
  | .rnd _ _ => ⟨"RND", [⟨15, 12, 0xc⟩]⟩
  | .drw _ _ _ => ⟨"DRW", [⟨15, 12, 0xd⟩]⟩
  | .skp _ => ⟨"SKP", [⟨7, 0, 0x9e⟩, ⟨15, 12, 0xe⟩]⟩
  | .sknp _ => ⟨"SKNP", [⟨7, 0, 0xa1⟩, ⟨15, 12, 0xe⟩]⟩
  | .ldVxDt _ => ⟨"LD_Vx_DT", [⟨7, 0, 0x7⟩, ⟨15, 12, 0xf⟩]⟩
  | .ldVxK _ => ⟨"LD_Vx_K", [⟨7, 0, 0xa⟩, ⟨15, 12, 0xf⟩]⟩
  | .ldDtVx _ => ⟨"LD_DT_Vx", [⟨7, 0, 0x15⟩, ⟨15, 12, 0xf⟩]⟩
  | .ldStVx _ => ⟨"LD_ST_Vx", [⟨7, 0, 0x18⟩, ⟨15, 12, 0xf⟩]⟩
  | .addI _ => ⟨"ADD_I", [⟨7, 0, 0x1e⟩, ⟨15, 12, 0xf⟩]⟩
  | .ldF _ => ⟨"LD_F", [⟨7, 0, 0x29⟩, ⟨15, 12, 0xf⟩]⟩
  | .ldB _ => ⟨"LD_B", [⟨7, 0, 0x33⟩, ⟨15, 12, 0xf⟩]⟩
  | .ldIVx _ => ⟨"LD_I_Vx", [⟨7, 0, 0x55⟩, ⟨15, 12, 0xf⟩]⟩
  | .ldVxI _ => ⟨"LD_Vx_I", [⟨7, 0, 0x65⟩, ⟨15, 12, 0xf⟩]⟩

end Sys2Proof
end

