-- ==== Sys2Proof/Decode.lean ====
section
/-! DEFINITION. The decode of 30_encoding.md R74, total on the 65536 words and rejecting by the name of R76's set; after
it the encoder, written from the patterns of R72 and R79, and the byte order of an instruction word (20_memory.md R51). -/

namespace Sys2Proof

/-- `w[hi:lo]`: the unsigned value of bits hi down to lo (R10). -/
def slice (w : Word) (hi lo : Nat) : Nat := w.toNat / 2 ^ lo % 2 ^ (hi + 1 - lo)

/-- `X = w[11:8]` (R13). -/
def fieldX (w : Word) : Reg := Fin.ofNat 16 (slice w 11 8)

/-- `Y = w[7:4]` (R13). -/
def fieldY (w : Word) : Reg := Fin.ofNat 16 (slice w 7 4)

/-- `N = w[3:0]` as the row count of DXYN (R13). -/
def fieldN (w : Word) : Rows := Fin.ofNat 16 (slice w 3 0)

/-- `NN = w[7:0]` (R13). -/
def fieldNN (w : Word) : Byte := u8 (slice w 7 0)

/-- `NNN = w[11:0]` (R13). -/
def fieldNNN (w : Word) : Addr12 := BitVec.ofNat 12 (slice w 11 0)

/-- Family 0 (R74): the whole word is tested. -/
def decode0 (w : Word) : Except Unrecognized Instr :=
  if w = 0x00E0 then .ok .cls
  else if w = 0x00EE then .ok .ret
  else .error .family0

/-- Families 5 and 9 (R74): N must be 0. -/
def decodeN0 (w : Word) (i : Instr) (r : Unrecognized) : Except Unrecognized Instr :=
  if slice w 3 0 = 0 then .ok i else .error r

/-- Family 8 (R74): N selects the operation. -/
def decode8 (w : Word) : Except Unrecognized Instr :=
  match slice w 3 0 with
  | 0x0 => .ok (.ldReg (fieldX w) (fieldY w))
  | 0x1 => .ok (.orReg (fieldX w) (fieldY w))
  | 0x2 => .ok (.andReg (fieldX w) (fieldY w))
  | 0x3 => .ok (.xorReg (fieldX w) (fieldY w))
  | 0x4 => .ok (.addReg (fieldX w) (fieldY w))
  | 0x5 => .ok (.sub (fieldX w) (fieldY w))
  | 0x6 => .ok (.shr (fieldX w) (fieldY w))
  | 0x7 => .ok (.subn (fieldX w) (fieldY w))
  | 0xE => .ok (.shl (fieldX w) (fieldY w))
  | _ => .error .family8

/-- Family E (R74): NN selects the operation. -/
def decodeE (w : Word) : Except Unrecognized Instr :=
  match slice w 7 0 with
  | 0x9E => .ok (.skp (fieldX w))
  | 0xA1 => .ok (.sknp (fieldX w))
  | _ => .error .familyE

/-- Family F (R74): NN selects the operation. -/
def decodeF (w : Word) : Except Unrecognized Instr :=
  match slice w 7 0 with
  | 0x07 => .ok (.ldVxDt (fieldX w))
  | 0x0A => .ok (.ldVxK (fieldX w))
  | 0x15 => .ok (.ldDtVx (fieldX w))
  | 0x18 => .ok (.ldStVx (fieldX w))
  | 0x1E => .ok (.addI (fieldX w))
  | 0x29 => .ok (.ldF (fieldX w))
  | 0x33 => .ok (.ldB (fieldX w))
  | 0x55 => .ok (.ldIVx (fieldX w))
  | 0x65 => .ok (.ldVxI (fieldX w))
  | _ => .error .familyF

/-- The decode of R74: dispatch on the top 4 bits. -/
def decode (w : Word) : Except Unrecognized Instr :=
  match slice w 15 12 with
  | 0x0 => decode0 w
  | 0x1 => .ok (.jp (fieldNNN w))
  | 0x2 => .ok (.call (fieldNNN w))
  | 0x3 => .ok (.seImm (fieldX w) (fieldNN w))
  | 0x4 => .ok (.sneImm (fieldX w) (fieldNN w))
  | 0x5 => decodeN0 w (.seReg (fieldX w) (fieldY w)) .family5
  | 0x6 => .ok (.ldImm (fieldX w) (fieldNN w))
  | 0x7 => .ok (.addImm (fieldX w) (fieldNN w))
  | 0x8 => decode8 w
  | 0x9 => decodeN0 w (.sneReg (fieldX w) (fieldY w)) .family9
  | 0xA => .ok (.ldI (fieldNNN w))
  | 0xB => .ok (.jpV0 (fieldNNN w))
  | 0xC => .ok (.rnd (fieldX w) (fieldNN w))
  | 0xD => .ok (.drw (fieldX w) (fieldY w) (fieldN w))
  | 0xE => decodeE w
  | _ => decodeF w

/-- The format `nnn` of R72: op, NNN. -/
def wordNNN (op : Nat) (nnn : Addr12) : Word := u16 (op * 4096 + nnn.toNat)

/-- The format `xnn` of R72, and `x` with NN fixed: op, X, NN. -/
def wordXNN (op : Nat) (x : Reg) (nn : Nat) : Word := u16 (op * 4096 + x.val * 256 + nn)

/-- The format `xyn` of R72, and `xy` with N fixed: op, X, Y, N. -/
def wordXYN (op : Nat) (x y : Reg) (n : Nat) : Word := u16 (op * 4096 + x.val * 256 + y.val * 16 + n)

/-- The word of an instruction, from the patterns of R79. -/
def encode : Instr → Word
  | .cls => 0x00E0
  | .ret => 0x00EE
  | .jp nnn => wordNNN 0x1 nnn
  | .call nnn => wordNNN 0x2 nnn
  | .seImm x nn => wordXNN 0x3 x nn.toNat
  | .sneImm x nn => wordXNN 0x4 x nn.toNat
  | .seReg x y => wordXYN 0x5 x y 0x0
  | .ldImm x nn => wordXNN 0x6 x nn.toNat
  | .addImm x nn => wordXNN 0x7 x nn.toNat
  | .ldReg x y => wordXYN 0x8 x y 0x0
  | .orReg x y => wordXYN 0x8 x y 0x1
  | .andReg x y => wordXYN 0x8 x y 0x2
  | .xorReg x y => wordXYN 0x8 x y 0x3
  | .addReg x y => wordXYN 0x8 x y 0x4
  | .sub x y => wordXYN 0x8 x y 0x5
  | .shr x y => wordXYN 0x8 x y 0x6
  | .subn x y => wordXYN 0x8 x y 0x7
  | .shl x y => wordXYN 0x8 x y 0xE
  | .sneReg x y => wordXYN 0x9 x y 0x0
  | .ldI nnn => wordNNN 0xA nnn
  | .jpV0 nnn => wordNNN 0xB nnn
  | .rnd x nn => wordXNN 0xC x nn.toNat
  | .drw x y n => wordXYN 0xD x y n.val
  | .skp x => wordXNN 0xE x 0x9E
  | .sknp x => wordXNN 0xE x 0xA1
  | .ldVxDt x => wordXNN 0xF x 0x07
  | .ldVxK x => wordXNN 0xF x 0x0A
  | .ldDtVx x => wordXNN 0xF x 0x15
  | .ldStVx x => wordXNN 0xF x 0x18
  | .addI x => wordXNN 0xF x 0x1E
  | .ldF x => wordXNN 0xF x 0x29
  | .ldB x => wordXNN 0xF x 0x33
  | .ldIVx x => wordXNN 0xF x 0x55
  | .ldVxI x => wordXNN 0xF x 0x65

/-- The word of two consecutive bytes, `high<<8 | low` (R51, R91). -/
def composeWord (high low : Byte) : Word := u16 (high.toNat * 256 + low.toNat)

/-- The byte of a word that stands at the lower address (R51). -/
def highByte (w : Word) : Byte := u8 (w.toNat / 256)

/-- The byte of a word that stands at the higher address (R51). -/
def lowByte (w : Word) : Byte := u8 (w.toNat % 256)

/-- The instruction word whose bits, numbered as spec/opcode_table.json numbers them, are the low `nbits` of `w`. -/
def tableWord (nbits w : Nat) : Word := u16 (w % 2 ^ nbits)

/-- What the decoder reads from a word of the opcode table, laid out as two bytes, the high one first. -/
def decodeTableWord (nbits w : Nat) : Option Instr :=
  (decode (composeWord (highByte (tableWord nbits w)) (lowByte (tableWord nbits w)))).toOption

end Sys2Proof
end

