-- ==== Sys2Proof/Config.lean ====
section
/-! DEFINITION. What is fixed for the machine: the type of the parameter `FONT` and of the four optional parameters
of 93_implementation_defined.md, and the free value of CXNN. The sizes of 00_scope.md R8 are one value each; they stand in the
types of `Machine.State` and, as in the spec's rules, as numerals. -/

namespace Sys2Proof

/-- An 80-byte font table, the parameter `FONT` of R9. -/
abbrev Font := Vector Byte 80

/-- `VF_ORDER` (93 U8): which of the result and the flag is written last when X = 0xF. -/
inductive VfOrder where
  | flagLast
  | resultLast
  deriving DecidableEq, Repr

/-- The four optional parameters of 93_implementation_defined.md (R9). Their normative values are
`Machine.Variant.normative`. -/
structure Config.Variant where
  /-- `VF_ORDER` (U8). -/
  vfOrder : VfOrder
  /-- `DRW_COORD_FIRST` (U9). -/
  drwCoordFirst : Bool
  /-- `FX1E_REDUCE_ALWAYS` (U10). -/
  fx1eReduceAlways : Bool
  /-- `LOGIC_RESETS_VF` (U12). -/
  logicResetsVf : Bool
  deriving DecidableEq, Repr

/-- The FREE VALUE of CXNN (R7, R141, U7): the byte the n-th draw gives. It has no body, so nothing is known of it but
its range, and no law holds between draws. DESIGN CHOICE, log 1; safe. -/
opaque Config.draw : Nat → Byte

end Sys2Proof
end

