-- ==== Sys2Proof/Machine/State.lean ====
section
/-! DEFINITION. The state record of 10_state.md R20, with the spec's field names, its reset values (R40), the spec's fault
record (60_exceptions.md R181, R182), and the two reason types of `Host.Outcome`. -/

namespace Sys2Proof.Machine

/-- Addressable Memory (R36) as plain data: the cells that differ from their reset contents, addresses strictly rising
(`Memory.wf` in Ops.lean says the form). An address that is not listed reads as its reset contents (log 4). -/
abbrev Memory := List Host.Cell

/-- The display buffer (R31): a grid of 32 rows of 64 pixels, so that pixel index `x + 64*y` is row `y`, column `x`. -/
abbrev Display := Vector (Vector Bool 64) 32

/-- A display with every pixel off. -/
def Display.clear : Display := Vector.replicate 32 (Vector.replicate 64 false)

/-- The seven kinds of fault of R182. -/
inductive FaultKind where
  /-- code 1: CALL with `sp = 16` (R112) -/
  | stackOverflow
  /-- code 2: RET with `sp = 0` (R110) -/
  | stackUnderflow
  /-- code 3: fetch with `pc > 4094` (R92) -/
  | fetchBounds
  /-- code 4: a data read above 4095 (R171, R155) -/
  | readBounds
  /-- code 5: a data write above 4095 (R153, R154) -/
  | writeBounds
  /-- code 6: a set sprite bit at a pixel index above 2047 (R171) -/
  | displayBounds
  /-- code 7: a key number above 15 (R124, R125) -/
  | keyIndex
  deriving DecidableEq, Repr

/-- The fault record of R181. Its `code` is `FaultKind.code` of `kind`. -/
structure FaultRecord where
  kind : FaultKind
  /-- the address of the faulting instruction -/
  pc : Word
  /-- the fetched word, or none for `fetchBounds` -/
  word : Option Word
  /-- the number R182 gives for the kind -/
  info : Nat
  deriving DecidableEq, Repr

/-- The unknown-opcode diagnostic of R37. -/
structure UnknownRecord where
  pc : Word
  word : Word
  deriving DecidableEq, Repr

/-- Why a step could stop with a fault of `Host.Outcome`. NOTHING raises one: every fault the spec gives the core is a next
state with the record of R181 in `State.fault` (R99), so the type has no constructor. Safe. -/
inductive Fault where
  deriving DecidableEq, Repr

/-- Why a step could refuse. Every instruction of the table has its meaning, so nothing raises one. -/
inductive Refusal where
  /-- An instruction with no meaning yet, by its mnemonic in spec/opcode_table.json. Raised by an arm of `exec` only. Safe. -/
  | notModelled (mnemonic : String)
  deriving DecidableEq, Repr

/-- The core's state: the record of R20, and after it the model's own two fields. -/
structure State where
  /-- Addressable Memory (R36) -/
  mem : Memory
  /-- the general registers V0 to VF (R21) -/
  V : Vector Byte 16
  /-- the index register (R25) -/
  I : Word
  /-- the program counter (R23) -/
  pc : Word
  /-- the call stack (R27) -/
  Stack : Vector Word 16
  /-- the number of live stack entries, 0 to 16 (R28) -/
  sp : Fin 17
  /-- the delay timer (R29) -/
  DT : Byte
  /-- the sound timer (R29) -/
  ST : Byte
  /-- the display buffer, row-major 64 x 32 (R31) -/
  Disp : Display
  /-- the keypad flags, written by the host (R32) -/
  Key : Vector Bool 16
  /-- the most recently fetched word (R33) -/
  opcode : Word
  /-- the redraw-requested output flag (R34) -/
  redraw : Bool
  /-- the beep-requested output flag (R35) -/
  beep : Bool
  /-- the unknown-opcode diagnostic (R37) -/
  unknown : Option UnknownRecord
  /-- the fault state (R20, R181) -/
  fault : Option FaultRecord
  /-- THE MODEL'S OWN: how many draws CXNN has taken; the next draw is `Config.draw drawCount` (log 2) -/
  drawCount : Nat
  /-- THE MODEL'S OWN: the refusal mark of R77, R97 and R215: an UNRECOGNIZED word has been executed (log 8) -/
  refusalMark : Bool
  deriving DecidableEq, Repr

/-- The state after reset (R40, R200). The reset contents of memory are what unlisted addresses read as, so nothing is
listed. -/
def State.reset : State where
  mem := []
  V := Vector.replicate 16 0
  I := 0
  pc := 0x200
  Stack := Vector.replicate 16 0
  sp := 0
  DT := 0
  ST := 0
  Disp := Display.clear
  Key := Vector.replicate 16 false
  opcode := 0x0000
  redraw := true
  beep := false
  unknown := none
  fault := none
  drawCount := 0
  refusalMark := false

end Sys2Proof.Machine
end

