-- ==== Sys2Proof/Machine/Ops.lean ====
section
/-! DEFINITION. The named operations over memory, registers, stack, display and flags; the reset contents of memory;
taking a fault (60_exceptions.md R181), the one exception entry of this hardware. There is no return from a fault but
`reset` (R183), which is in HostActions.lean. -/

namespace Sys2Proof.Machine

/-! ## The parameters' default values -/

/-- The normative values of the four optional parameters of 93_implementation_defined.md (logs 10 to 13). -/
def Variant.normative : Config.Variant where
  vfOrder := .flagLast
  drwCoordFirst := true
  fx1eReduceAlways := true
  logicResetsVf := false

/-- The default font of R38, one row a digit. PRESUMED: the spec takes it from general knowledge (log 3). -/
def defaultFontRows : List (List Byte) :=
  [[0xF0, 0x90, 0x90, 0x90, 0xF0], [0x20, 0x60, 0x20, 0x20, 0x70],
   [0xF0, 0x10, 0xF0, 0x80, 0xF0], [0xF0, 0x10, 0xF0, 0x10, 0xF0]] ++
  [[0x90, 0x90, 0xF0, 0x10, 0x10], [0xF0, 0x80, 0xF0, 0x10, 0xF0],
   [0xF0, 0x80, 0xF0, 0x90, 0xF0], [0xF0, 0x10, 0x20, 0x40, 0x40]] ++
  [[0xF0, 0x90, 0xF0, 0x90, 0xF0], [0xF0, 0x90, 0xF0, 0x10, 0xF0],
   [0xF0, 0x90, 0xF0, 0x90, 0x90], [0xE0, 0x90, 0xE0, 0x90, 0xE0]] ++
  [[0xF0, 0x80, 0x80, 0x80, 0xF0], [0xE0, 0x90, 0x90, 0x90, 0xE0],
   [0xF0, 0x80, 0xF0, 0x80, 0xF0], [0xF0, 0x80, 0xF0, 0x80, 0x80]]

/-- Byte `a` of the default font, zero past its end. -/
def defaultFontByte (a : Nat) : Byte := defaultFontRows.flatten.getD a 0

/-- The parameter `FONT` at its default (R9, R38). -/
def defaultFont : Font := Vector.ofFn fun k => defaultFontByte k.val

/-! ## Memory (20_memory.md) -/

/-- What an address holds after reset: the font at 0 to 79, zero above (R40). It is what an unlisted address reads as. -/
def initialByte (a : Nat) : Byte := if a < 80 then defaultFontByte a else 0

/-- The canonical form of memory: addresses strictly rising, below 4096, no cell equal to its reset contents. -/
abbrev Memory.wf (m : Memory) : Prop :=
  m.Pairwise (fun c d => c.1 < d.1) ∧ ∀ c ∈ m, c.1 < 4096 ∧ c.2 ≠ initialByte c.1

/-- `MemRead(a, 1)` (R12, R57). -/
def Memory.read : Memory → Nat → Byte
  | [], a => initialByte a
  | (k, b) :: rest, a => if k = a then b else Memory.read rest a

/-- Put a cell at its place in a rising list. -/
def Memory.insert (a : Nat) (b : Byte) : Memory → Memory
  | [] => [(a, b)]
  | (k, c) :: rest => if a < k then (a, b) :: (k, c) :: rest else (k, c) :: Memory.insert a b rest

/-- Take every cell of an address out. -/
def Memory.erase (m : Memory) (a : Nat) : Memory := m.filter fun c => c.1 != a

/-- `MemWrite(a, 1, b)` (R12, R57). Every instruction checks its addresses before it writes (R53); a write outside the
address space, which none makes, would change nothing. -/
def Memory.write (m : Memory) (a : Nat) (b : Byte) : Memory :=
  if a < 4096 then
    if b = initialByte a then m.erase a else Memory.insert a b (m.erase a)
  else m

/-- Write bytes to consecutive addresses, the first at `a`. -/
def Memory.writeBlock (m : Memory) (a : Nat) : List Byte → Memory
  | [] => m
  | b :: bs => Memory.writeBlock (m.write a b) (a + 1) bs

/-- The first address outside 0..4095 of an access to the `len` bytes from `base` (R53), `len` being 1 or more. -/
def firstOutside (base len : Nat) : Option Nat :=
  if base + len ≤ 4096 then none
  else some (if 4096 ≤ base then base else 4096)

/-- The byte at an address. -/
def State.memRead (s : State) (a : Nat) : Byte := s.mem.read a

/-- Store bytes at consecutive addresses. -/
def State.memWriteBlock (s : State) (a : Nat) (bs : List Byte) : State := { s with mem := s.mem.writeBlock a bs }

/-- Store an instruction word at `pc` and `pc + 1`, high byte first (R51). -/
def State.storeWordAtPc (s : State) (w : Word) : State := s.memWriteBlock s.pc.toNat [highByte w, lowByte w]

/-! ## Registers, stack, timers, display, flags -/

/-- `V[x]` (R12). -/
def State.getV (s : State) (x : Reg) : Byte := s.V[x.val]

/-- `V[x] <- b` (R12). -/
def State.setV (s : State) (x : Reg) (b : Byte) : State := { s with V := s.V.set x.val b }

/-- `V[k] <- f k` for k in 0..x (R155). -/
def State.setBlockV (s : State) (x : Reg) (f : Nat → Byte) : State :=
  { s with V := Vector.ofFn fun k => if k.val ≤ x.val then f k.val else s.V[k.val] }

/-- The bytes V0 to Vx, in order (R154). -/
def State.blockV (s : State) (x : Reg) : List Byte := s.V.toList.take (x.val + 1)

/-- `I <- v mod 2^16` (R12, D25). -/
def State.setI (s : State) (v : Nat) : State := { s with I := u16 v }

/-- `pc <- v mod 2^16` (R12, D25). -/
def State.setPc (s : State) (v : Nat) : State := { s with pc := u16 v }

/-- `adv(k)`: `pc <- (pc + k) mod 2^16` (R95). -/
def State.adv (s : State) (k : Nat) : State := s.setPc (s.pc.toNat + k)

/-- `DT <- b` (R12). -/
def State.setDT (s : State) (b : Byte) : State := { s with DT := b }

/-- `ST <- b` (R12). -/
def State.setST (s : State) (b : Byte) : State := { s with ST := b }

/-- Replace the display buffer (R31). -/
def State.setDisp (s : State) (d : Display) : State := { s with Disp := d }

/-- `redraw <- true` (R34). -/
def State.requestRedraw (s : State) : State := { s with redraw := true }

/-- `beep <- true` (R35). -/
def State.requestBeep (s : State) : State := { s with beep := true }

/-- `opcode <- w` (R33). -/
def State.setOpcode (s : State) (w : Word) : State := { s with opcode := w }

/-- `unknown <- (pc, w)`, and the refusal mark (R97). -/
def State.noteUnknown (s : State) (w : Word) : State :=
  { s with unknown := some ⟨s.pc, w⟩, refusalMark := true }

/-- Spend one draw (R7). -/
def State.spendDraw (s : State) : State := { s with drawCount := s.drawCount + 1 }

/-- `Rand()`: the draw of this cycle, a free value (R7, R12). -/
def State.draw (s : State) : Byte := Config.draw s.drawCount

/-- `Stack[sp] <- v; sp <- sp + 1`, for `sp < 16` (R112). -/
def State.push (s : State) (v : Word) (h : s.sp.val < 16) : State :=
  { s with Stack := s.Stack.set s.sp.val v, sp := ⟨s.sp.val + 1, by omega⟩ }

/-- `sp <- sp - 1` (R110): the entry keeps its value (R28). -/
def State.pop (s : State) : State := { s with sp := ⟨s.sp.val - 1, by omega⟩ }

/-- The most recent return address, `Stack[sp - 1]`, for `sp > 0` (R28). -/
def State.topOfStack (s : State) : Word := s.Stack[s.sp.val - 1]

/-- `Disp[p]` for a pixel index `p = x + 64*y`, row-major (R31, R172). An index past the buffer, which no instruction reads
(R171), is off. -/
def pixel (d : Display) (p : Nat) : Bool :=
  if h : p < 2048 then (d[p / 64]'(by omega))[p % 64]'(by omega) else false

/-- `Disp[p] <- not Disp[p]`. -/
def flipPixel (d : Display) (p : Nat) : Display :=
  if h : p < 2048 then
    d.set (p / 64) ((d[p / 64]'(by omega)).set (p % 64) (!pixel d p) (by omega)) (by omega)
  else d

/-! ## Taking a fault -/

/-- The code of a fault kind (R182). -/
def FaultKind.code : FaultKind → Nat
  | .stackOverflow => 1
  | .stackUnderflow => 2
  | .fetchBounds => 3
  | .readBounds => 4
  | .writeBounds => 5
  | .displayBounds => 6
  | .keyIndex => 7

/-- `raise Fault(kind, info)` (R12, R181): every field keeps the value it had at the start of the cycle, and `fault` is set
to the record, with the unchanged `pc` and the fetched word. Every meaning raises on the state it was given. -/
def State.raise (s : State) (kind : FaultKind) (word : Option Word) (info : Nat) : State :=
  { s with fault := some ⟨kind, s.pc, word, info⟩ }

end Sys2Proof.Machine
end

