-- ==== Sys2Proof/Machine/Operands.lean ====
section
/-! DEFINITION. The operand forms: what an instruction's fields name (30_encoding.md R73), the one data addressing mode
(44_index_and_memory.md R156), the keypad operand, the decimal digits of FX33, and the sprite addressing of
46_display.md R171 to R173. -/

namespace Sys2Proof.Machine

/-- The key named by a register's value, when it is one of the 16 (R124). -/
def State.keyOf (s : State) (x : Reg) : Option (Fin 16) :=
  if h : (s.getV x).toNat < 16 then some ⟨(s.getV x).toNat, h⟩ else none

/-- `Key[k]` (R12). -/
def State.getKey (s : State) (k : Fin 16) : Bool := s.Key[k.val]

/-- `max { k | Key[k] }` (R163), if any key is pressed: the 16 keys are scanned from the highest down. -/
def State.highestKey (s : State) : Option (Fin 16) := (List.finRange 16).reverse.find? fun k => s.getKey k

/-- The decimal digits of a byte, hundreds first (R153). -/
def bcdDigits (a : Byte) : List Byte := [u8 (a.toNat / 100), u8 (a.toNat / 10 % 10), u8 (a.toNat % 10)]

/-- The address of the byte `k` of the block at `I` (R156): no wrap, so that a block past 4095 is seen to be. -/
def State.atI (s : State) (k : Nat) : Nat := s.I.toNat + k

/-- The font address of a hex digit: `5 * VX`, not masked (R152). -/
def fontAddress (v : Byte) : Nat := 5 * v.toNat

/-- Bit of a sprite row at a column offset: bit 7 is column 0 (R173; PRESUMED, log 18). -/
def spriteBit (b : Byte) (col : Nat) : Bool := b.toNat / 2 ^ (7 - col) % 2 == 1

/-- The columns of a sprite row whose bit is set, in increasing order (R171). -/
def setColumns (b : Byte) : List Nat := (List.range 8).filter (spriteBit b)

/-- The linear index of a sprite pixel, exact, with no clamp or wrap per axis (R172). -/
def pixelIndex (x0 y0 row col : Nat) : Nat := (x0 + col) + 64 * (y0 + row)

/-- The pixel indices of the set bits of one sprite row, in column order (R171). -/
def State.rowPixels (s : State) (x0 y0 row : Nat) : List Nat :=
  (setColumns (s.memRead (s.atI row))).map (pixelIndex x0 y0 row)

/-- The pixel indices of all set bits of an `n`-row sprite at `I`, rows in order (R171). -/
def State.spritePixels (s : State) (x0 y0 n : Nat) : List Nat :=
  (List.range n).flatMap (s.rowPixels x0 y0)

/-- The check of one sprite row (R171, R184): its byte's address first, then its set bits in column order. -/
def State.rowFault (s : State) (x0 y0 row : Nat) : Option (FaultKind × Nat) :=
  if 4096 ≤ s.atI row then some (.readBounds, s.atI row)
  else ((s.rowPixels x0 y0 row).find? fun p => decide (2048 ≤ p)).map fun p => (.displayBounds, p)

/-- The check pass of DXYN (R171): the first failing access, rows in order. -/
def State.spriteFault (s : State) (x0 y0 n : Nat) : Option (FaultKind × Nat) :=
  (List.range n).findSome? (s.rowFault x0 y0)

/-- A coordinate of DXYN: VX, read before VF is written (R171, D8). With `DRW_COORD_FIRST` false VF has been cleared
before the read (93 U9). -/
def State.coordinate (v : Config.Variant) (s : State) (x : Reg) : Nat :=
  if v.drwCoordFirst = false ∧ x = VF then 0 else (s.getV x).toNat

end Sys2Proof.Machine
end

