-- ==== Sys2Proof/Machine/Flags.lean ====
section
/-! DEFINITION. The flag conventions of 43_alu.md R142, of FX1E (R151) and of DXYN (R171), and the order in which a result
and its flag are written (40_cycle.md R95). VF is the only flag. -/

namespace Sys2Proof.Machine

/-- A flag as the byte VF holds. -/
def flagByte (b : Bool) : Byte := if b then 1 else 0

/-- Carry (8XY4): the unbounded sum exceeds 255 (R142). -/
def carry (a b : Byte) : Bool := decide (255 < a.toNat + b.toNat)

/-- No borrow in `a - b`: false exactly when `b > a` (R142). -/
def notBorrow (a b : Byte) : Bool := !decide (a.toNat < b.toNat)

/-- The bit a right shift by 1 shifts out: bit 0 (R138). -/
def shiftedOutRight (a : Byte) : Bool := a.toNat % 2 == 1

/-- The bit a left shift by 1 shifts out: bit 7 (R140). -/
def shiftedOutLeft (a : Byte) : Bool := a.toNat / 128 % 2 == 1

/-- The overflow of FX1E: the pre-modulo sum exceeds 0xFFF (R151). -/
def indexOverflow (sum : Nat) : Bool := decide (0xFFF < sum)

/-- The index FX1E leaves: the sum modulo 0xFFF, always (R151, D12); with `FX1E_REDUCE_ALWAYS` false only when the flag is
1 (93 U10). -/
def reducedIndex (v : Config.Variant) (sum : Nat) : Nat :=
  if v.fx1eReduceAlways = true ∨ indexOverflow sum = true then sum % 0xFFF else sum

/-- The effect pass of DXYN over the touched pixels (R171): the display and whether a pixel was on before. -/
def xorPixels : List Nat → Display → Bool → Display × Bool
  | [], d, c => (d, c)
  | p :: ps, d, c => xorPixels ps (flipPixel d p) (c || pixel d p)

/-- Write a result to VX and a flag to VF, the flag last (R95); with `VF_ORDER = result_last` the result last (93 U8). -/
def State.setResultAndFlag (v : Config.Variant) (s : State) (x : Reg) (r : Byte) (f : Bool) : State :=
  match v.vfOrder with
  | .flagLast => (s.setV x r).setV VF (flagByte f)
  | .resultLast => (s.setV VF (flagByte f)).setV x r

/-- The result of 8XY1, 8XY2, 8XY3: VF is not written (R133 to R135, D11); with `LOGIC_RESETS_VF` true it is cleared after
the result (93 U12). -/
def State.setLogicResult (v : Config.Variant) (s : State) (x : Reg) (r : Byte) : State :=
  if v.logicResetsVf then (s.setV x r).setV VF 0 else s.setV x r

end Sys2Proof.Machine
end

