-- ==== Sys2Proof/Machine/Cycle.lean ====
section
/-! DEFINITION. What a cycle does around the execute arm (40_cycle.md): the fetch and its fault, the UNRECOGNIZED arm, the
timer tick, and the end of the cycle. Step.lean only puts them together. -/

namespace Sys2Proof.Machine

/-- The word at `pc` and `pc + 1`, high byte first (R91). -/
def State.wordAtPc (s : State) : Word := composeWord (s.memRead s.pc.toNat) (s.memRead (s.pc.toNat + 1))

/-- Fetch (R91); none where it faults (R92). It does not change `pc`. -/
def fetch (s : State) : Option Word :=
  if (firstOutside s.pc.toNat 2).isSome then none else some s.wordAtPc

/-- The fetch fault (R92): no word, and the first address above 4095 the fetch would read. -/
def fetchFault (s : State) : State :=
  s.raise .fetchBounds none ((firstOutside s.pc.toNat 2).getD 0)

/-- The arm of an UNRECOGNIZED word (R97): the diagnostic, and nothing else; `pc` stays. The decode-ambiguous words of R77
stall too, the normative behaviour (log 9). -/
def execUnrecognized (w : Word) (s : State) : State := s.noteUnknown w

/-- The delay timer's tick (R96). -/
def State.tickDelay (s : State) : State := if s.DT = 0 then s else s.setDT (s.DT - 1)

/-- The sound timer's tick (R96): `beep` is set before the decrement, when the timer is 1. -/
def State.tickSound (s : State) : State :=
  if s.ST = 0 then s
  else if s.ST = 1 then s.requestBeep.setST (s.ST - 1)
  else s.setST (s.ST - 1)

/-- The timer tick (R96). -/
def State.tick (s : State) : State := s.tickDelay.tickSound

/-- The end of a cycle after its execute arm: a cycle that faulted keeps the state the fault left, with no tick and the old
`opcode` (R99); any other records the fetched word (R91) and ticks the timers (R96). -/
def endCycle (w : Word) (t : State) : State :=
  if t.fault.isSome then t else (t.setOpcode w).tick

/-- `endCycle` after an execute arm's outcome. -/
def finishCycle (w : Word) : Host.Outcome State Fault Refusal → Host.Outcome State Fault Refusal
  | .next t => .next (endCycle w t)
  | .fault r => .fault r
  | .refused r => .refused r

/-- A state whose next step fetches the word: it stands at `pc`. Fetching needs a core that is not faulted (R98) and a
`pc` of at most 4094 (R92), so a fault is cleared and an unfetchable `pc` moved to the program base (log 20). -/
def placeWord (s : State) (w : Word) : State :=
  (if (firstOutside s.pc.toNat 2).isSome then { s with fault := none, pc := u16 512 }
   else { s with fault := none }).storeWordAtPc w

end Sys2Proof.Machine
end

