-- ==== Sys2Proof/Machine/Alu.lean ====
section
/-! DEFINITION. The register and ALU operations of 43_alu.md. Values are read from the state the meaning is given, results
computed on naturals and narrowed (R11), and the flag written last (R95). A meaning that a parameter of
93_implementation_defined.md touches takes it as its first argument in a `With` form. -/

namespace Sys2Proof.Machine

/-- 6XNN (R130). -/
def execLdImm (x : Reg) (nn : Byte) (s : State) : Host.Outcome State Fault Refusal :=
  .next ((s.setV x nn).adv 2)

/-- 7XNN (R131): no flag. -/
def execAddImm (x : Reg) (nn : Byte) (s : State) : Host.Outcome State Fault Refusal :=
  .next ((s.setV x (u8 ((s.getV x).toNat + nn.toNat))).adv 2)

/-- 8XY0 (R132). -/
def execLdReg (x y : Reg) (s : State) : Host.Outcome State Fault Refusal :=
  .next ((s.setV x (s.getV y)).adv 2)

/-- 8XY1 under a choice of the parameters (R133, U12). -/
def execOrWith (v : Config.Variant) (x y : Reg) (s : State) : Host.Outcome State Fault Refusal :=
  .next ((s.setLogicResult v x (s.getV x ||| s.getV y)).adv 2)

/-- 8XY1 (R133). -/
def execOr (x y : Reg) (s : State) : Host.Outcome State Fault Refusal :=
  execOrWith Variant.normative x y s

/-- 8XY2 under a choice of the parameters (R134, U12). -/
def execAndWith (v : Config.Variant) (x y : Reg) (s : State) : Host.Outcome State Fault Refusal :=
  .next ((s.setLogicResult v x (s.getV x &&& s.getV y)).adv 2)

/-- 8XY2 (R134). -/
def execAnd (x y : Reg) (s : State) : Host.Outcome State Fault Refusal :=
  execAndWith Variant.normative x y s

/-- 8XY3 under a choice of the parameters (R135, U12). -/
def execXorWith (v : Config.Variant) (x y : Reg) (s : State) : Host.Outcome State Fault Refusal :=
  .next ((s.setLogicResult v x (s.getV x ^^^ s.getV y)).adv 2)

/-- 8XY3 (R135). -/
def execXor (x y : Reg) (s : State) : Host.Outcome State Fault Refusal :=
  execXorWith Variant.normative x y s

/-- 8XY4 under a choice of the parameters (R136, U8). -/
def execAddRegWith (v : Config.Variant) (x y : Reg) (s : State) : Host.Outcome State Fault Refusal :=
  .next ((s.setResultAndFlag v x (u8 ((s.getV x).toNat + (s.getV y).toNat)) (carry (s.getV x) (s.getV y))).adv 2)

/-- 8XY4 (R136). -/
def execAddReg (x y : Reg) (s : State) : Host.Outcome State Fault Refusal :=
  execAddRegWith Variant.normative x y s

/-- The difference of two bytes modulo 256 (R137, R139). -/
def difference (a b : Byte) : Byte := u8 (256 + a.toNat - b.toNat)

/-- 8XY5 under a choice of the parameters (R137, U8). -/
def execSubWith (v : Config.Variant) (x y : Reg) (s : State) : Host.Outcome State Fault Refusal :=
  .next ((s.setResultAndFlag v x (difference (s.getV x) (s.getV y)) (notBorrow (s.getV x) (s.getV y))).adv 2)

/-- 8XY5 (R137). -/
def execSub (x y : Reg) (s : State) : Host.Outcome State Fault Refusal :=
  execSubWith Variant.normative x y s

/-- 8XY6 under a choice of the parameters (R138, U8): VY is never read. -/
def execShrWith (v : Config.Variant) (x _y : Reg) (s : State) : Host.Outcome State Fault Refusal :=
  .next ((s.setResultAndFlag v x (u8 ((s.getV x).toNat / 2)) (shiftedOutRight (s.getV x))).adv 2)

/-- 8XY6 (R138). -/
def execShr (x y : Reg) (s : State) : Host.Outcome State Fault Refusal :=
  execShrWith Variant.normative x y s

/-- 8XY7 under a choice of the parameters (R139, U8). -/
def execSubnWith (v : Config.Variant) (x y : Reg) (s : State) : Host.Outcome State Fault Refusal :=
  .next ((s.setResultAndFlag v x (difference (s.getV y) (s.getV x)) (notBorrow (s.getV y) (s.getV x))).adv 2)

/-- 8XY7 (R139). -/
def execSubn (x y : Reg) (s : State) : Host.Outcome State Fault Refusal :=
  execSubnWith Variant.normative x y s

/-- 8XYE under a choice of the parameters (R140, U8): VY is never read. -/
def execShlWith (v : Config.Variant) (x _y : Reg) (s : State) : Host.Outcome State Fault Refusal :=
  .next ((s.setResultAndFlag v x (u8 ((s.getV x).toNat * 2)) (shiftedOutLeft (s.getV x))).adv 2)

/-- 8XYE (R140). -/
def execShl (x y : Reg) (s : State) : Host.Outcome State Fault Refusal :=
  execShlWith Variant.normative x y s

/-- CXNN (R141): NN and the draw, a free value, which is spent. -/
def execRnd (x : Reg) (nn : Byte) (s : State) : Host.Outcome State Fault Refusal :=
  .next ((s.setV x (nn &&& s.draw)).spendDraw.adv 2)

end Sys2Proof.Machine
end

