-- ==== Sys2Proof/Machine/ControlFlow.lean ====
section
/-! DEFINITION. The control transfers of 41_control_flow.md: RET, JP, CALL, JP_V0. A meaning is the execute arm of
40_cycle.md R94 alone: the cycle around it (fetch, `opcode`, tick) is in Cycle.lean. -/

namespace Sys2Proof.Machine

/-- 00EE (R110): return to 2 past the address on top of the stack; StackUnderflow on an empty one. -/
def execRet (s : State) : Host.Outcome State Fault Refusal :=
  if s.sp.val = 0 then .next (s.raise .stackUnderflow (some (encode .ret)) s.sp.val)
  else .next (s.pop.setPc (s.topOfStack.toNat + 2))

/-- 1NNN (R111): jump. -/
def execJp (nnn : Addr12) (s : State) : Host.Outcome State Fault Refusal :=
  .next (s.setPc nnn.toNat)

/-- 2NNN (R112): push this CALL's own address and jump; StackOverflow when 16 addresses are on the stack. -/
def execCall (nnn : Addr12) (s : State) : Host.Outcome State Fault Refusal :=
  if h : s.sp.val < 16 then .next ((s.push s.pc h).setPc nnn.toNat)
  else .next (s.raise .stackOverflow (some (encode (.call nnn))) s.sp.val)

/-- BNNN (R113): jump to V0 + NNN, not reduced modulo 4096. -/
def execJpV0 (nnn : Addr12) (s : State) : Host.Outcome State Fault Refusal :=
  .next (s.setPc ((s.getV 0).toNat + nnn.toNat))

end Sys2Proof.Machine
end

