-- ==== Sys2Proof/Machine/Display.lean ====
section
/-! DEFINITION. The display operations of 46_display.md. -/

namespace Sys2Proof.Machine

/-- 00E0 (R170). -/
def execCls (s : State) : Host.Outcome State Fault Refusal :=
  .next ((s.setDisp Display.clear).requestRedraw.adv 2)

/-- DXYN under a choice of the parameters (R171, U9): the check pass, then the effect pass. -/
def execDrwWith (v : Config.Variant) (x y : Reg) (n : Rows) (s : State) : Host.Outcome State Fault Refusal :=
  match s.spriteFault (s.coordinate v x) (s.coordinate v y) n.val with
  | some (kind, info) => .next (s.raise kind (some (encode (.drw x y n))) info)
  | none =>
    let drawn := xorPixels (s.spritePixels (s.coordinate v x) (s.coordinate v y) n.val) s.Disp false
    .next ((((s.setDisp drawn.1).setV VF (flagByte drawn.2)).requestRedraw).adv 2)

/-- DXYN (R171). -/
def execDrw (x y : Reg) (n : Rows) (s : State) : Host.Outcome State Fault Refusal :=
  execDrwWith Variant.normative x y n s

end Sys2Proof.Machine
end

