-- ==== Sys2Proof/Machine/IndexMemory.lean ====
section
/-! DEFINITION. The index register and memory operations of 44_index_and_memory.md. Every address is checked before any
effect (20_memory.md R53). -/

namespace Sys2Proof.Machine

/-- ANNN (R150). -/
def execLdI (nnn : Addr12) (s : State) : Host.Outcome State Fault Refusal :=
  .next ((s.setI nnn.toNat).adv 2)

/-- The exact sum of FX1E, with no 16-bit wrap (R151). -/
def State.indexSum (s : State) (x : Reg) : Nat := s.I.toNat + (s.getV x).toNat

/-- FX1E under a choice of the parameters (R151, U8, U10). The result is `I`, so only the flag is a V register. -/
def execAddIWith (v : Config.Variant) (x : Reg) (s : State) : Host.Outcome State Fault Refusal :=
  .next (((s.setI (reducedIndex v (s.indexSum x))).setV VF (flagByte (indexOverflow (s.indexSum x)))).adv 2)

/-- FX1E (R151). -/
def execAddI (x : Reg) (s : State) : Host.Outcome State Fault Refusal :=
  execAddIWith Variant.normative x s

/-- FX29 (R152). -/
def execLdF (x : Reg) (s : State) : Host.Outcome State Fault Refusal :=
  .next ((s.setI (fontAddress (s.getV x))).adv 2)

/-- FX33 (R153): `I` is not changed. -/
def execLdB (x : Reg) (s : State) : Host.Outcome State Fault Refusal :=
  match firstOutside (s.atI 0) 3 with
  | some a => .next (s.raise .writeBounds (some (encode (.ldB x))) a)
  | none => .next ((s.memWriteBlock (s.atI 0) (bcdDigits (s.getV x))).adv 2)

/-- FX55 (R154): V0 to VX to memory, `I` past the block. -/
def execLdIVx (x : Reg) (s : State) : Host.Outcome State Fault Refusal :=
  match firstOutside (s.atI 0) (x.val + 1) with
  | some a => .next (s.raise .writeBounds (some (encode (.ldIVx x))) a)
  | none => .next (((s.memWriteBlock (s.atI 0) (s.blockV x)).setI (s.atI (x.val + 1))).adv 2)

/-- FX65 (R155): V0 to VX from memory, `I` past the block. -/
def execLdVxI (x : Reg) (s : State) : Host.Outcome State Fault Refusal :=
  match firstOutside (s.atI 0) (x.val + 1) with
  | some a => .next (s.raise .readBounds (some (encode (.ldVxI x))) a)
  | none => .next (((s.setBlockV x fun k => s.memRead (s.atI k)).setI (s.atI (x.val + 1))).adv 2)

end Sys2Proof.Machine
end

