-- ==== Sys2Proof/Machine/Skips.lean ====
section
/-! DEFINITION. The conditional skips of 42_conditional_skips.md: `pc` advances by 4 when the condition holds, else by 2. -/

namespace Sys2Proof.Machine

/-- Advance by 4 or by 2 (42_conditional_skips.md, `adv` of R95). -/
def State.skipIf (s : State) (c : Bool) : State := if c then s.adv 4 else s.adv 2

/-- 3XNN (R120). -/
def execSeImm (x : Reg) (nn : Byte) (s : State) : Host.Outcome State Fault Refusal :=
  .next (s.skipIf (s.getV x == nn))

/-- 4XNN (R121). -/
def execSneImm (x : Reg) (nn : Byte) (s : State) : Host.Outcome State Fault Refusal :=
  .next (s.skipIf (s.getV x != nn))

/-- 5XY0 (R122). -/
def execSeReg (x y : Reg) (s : State) : Host.Outcome State Fault Refusal :=
  .next (s.skipIf (s.getV x == s.getV y))

/-- 9XY0 (R123). -/
def execSneReg (x y : Reg) (s : State) : Host.Outcome State Fault Refusal :=
  .next (s.skipIf (s.getV x != s.getV y))

/-- EX9E (R124): skip if the key numbered by VX is pressed; KeyIndex for a number above 15. -/
def execSkp (x : Reg) (s : State) : Host.Outcome State Fault Refusal :=
  match s.keyOf x with
  | none => .next (s.raise .keyIndex (some (encode (.skp x))) (s.getV x).toNat)
  | some k => .next (s.skipIf (s.getKey k))

/-- EXA1 (R125): skip if that key is not pressed. -/
def execSknp (x : Reg) (s : State) : Host.Outcome State Fault Refusal :=
  match s.keyOf x with
  | none => .next (s.raise .keyIndex (some (encode (.sknp x))) (s.getV x).toNat)
  | some k => .next (s.skipIf (!s.getKey k))

end Sys2Proof.Machine
end

