-- ==== Sys2Proof/Machine/TimersKeypad.lean ====
section
/-! DEFINITION. The timer and keypad operations of 45_timers_and_keypad.md. The tick that follows in the same cycle is in
Cycle.lean. -/

namespace Sys2Proof.Machine

/-- FX07 (R160): the delay timer before this cycle's tick. -/
def execLdVxDt (x : Reg) (s : State) : Host.Outcome State Fault Refusal :=
  .next ((s.setV x s.DT).adv 2)

/-- FX15 (R161). -/
def execLdDtVx (x : Reg) (s : State) : Host.Outcome State Fault Refusal :=
  .next ((s.setDT (s.getV x)).adv 2)

/-- FX18 (R162). -/
def execLdStVx (x : Reg) (s : State) : Host.Outcome State Fault Refusal :=
  .next ((s.setST (s.getV x)).adv 2)

/-- FX0A (R163): the highest pressed key into VX; with no key pressed nothing changes, so `pc` stays on this word and the
next cycle fetches it again. -/
def execLdVxK (x : Reg) (s : State) : Host.Outcome State Fault Refusal :=
  match s.highestKey with
  | some k => .next ((s.setV x (u8 k.val)).adv 2)
  | none => .next s

end Sys2Proof.Machine
end

