-- ==== Sys2Proof/Machine/Step.lean ====
section
/-! DEFINITION. One step: one call of `cycle()` (40_cycle.md R90). -/

namespace Sys2Proof.Machine

/-- Decode and execute a fetched word (R93, R94): an instruction's arm, or the arm of an UNRECOGNIZED word. -/
def execWord (w : Word) (s : State) : Host.Outcome State Fault Refusal :=
  match decode w with
  | .ok i => exec i s
  | .error _ => .next (execUnrecognized w s)

/-- One cycle (R90): nothing on a faulted core (R98); else fetch, decode and execute, and the end of the cycle. -/
def step (s : State) : Host.Outcome State Fault Refusal :=
  if s.fault.isSome then .next s
  else
    match fetch s with
    | none => .next (fetchFault s)
    | some w => finishCycle w (execWord w s)

/-- The state with the instruction word of the opcode table stored where `step` fetches next. -/
def State.withFetchWord (s : State) (nbits w : Nat) : State := placeWord s (tableWord nbits w)

end Sys2Proof.Machine
end

