-- ==== Sys2Proof/Machine/Assembly.lean ====
section
/-! DEFINITION. The assembler syntax of 30_encoding.md R79 and R80, as abstract syntax. PRESUMED: the mnemonics are the
spec's, from general knowledge, and bind nothing in the hardware (D23, log 28); no step uses this file. -/

namespace Sys2Proof.Machine

/-- The mnemonics of R79. -/
inductive Mnemonic where
  | cls | ret | jp | call | se | sne | ld | add | or | and | xor | sub | shr | subn | shl | rnd | drw | skp | sknp
  deriving DecidableEq, Repr

/-- The operand forms of R79. -/
inductive AsmOperand where
  /-- `Vx` -/
  | v (x : Reg)
  /-- `byte` -/
  | byte (b : Byte)
  /-- `addr` -/
  | addr (a : Addr12)
  /-- `nibble` -/
  | nibble (n : Rows)
  /-- the keyword `I` -/
  | index
  /-- the keyword `DT` -/
  | delay
  /-- the keyword `ST` -/
  | sound
  /-- the keyword `K` -/
  | key
  /-- the keyword `F` -/
  | font
  /-- the keyword `B` -/
  | bcd
  /-- the keyword `[I]` -/
  | atIndex
  deriving DecidableEq, Repr

/-- A line of assembly: a mnemonic with its operands, or `.word 0xHHHH`. -/
inductive AsmLine where
  | code (m : Mnemonic) (operands : List AsmOperand)
  | word (w : Word)
  deriving DecidableEq, Repr

/-- The syntax column of R79. -/
def toAsm : Instr → AsmLine
  | .cls => .code .cls []
  | .ret => .code .ret []
  | .jp nnn => .code .jp [.addr nnn]
  | .call nnn => .code .call [.addr nnn]
  | .seImm x nn => .code .se [.v x, .byte nn]
  | .sneImm x nn => .code .sne [.v x, .byte nn]
  | .seReg x y => .code .se [.v x, .v y]
  | .ldImm x nn => .code .ld [.v x, .byte nn]
  | .addImm x nn => .code .add [.v x, .byte nn]
  | .ldReg x y => .code .ld [.v x, .v y]
  | .orReg x y => .code .or [.v x, .v y]
  | .andReg x y => .code .and [.v x, .v y]
  | .xorReg x y => .code .xor [.v x, .v y]
  | .addReg x y => .code .add [.v x, .v y]
  | .sub x y => .code .sub [.v x, .v y]
  | .shr x y => .code .shr [.v x, .v y]
  | .subn x y => .code .subn [.v x, .v y]
  | .shl x y => .code .shl [.v x, .v y]
  | .sneReg x y => .code .sne [.v x, .v y]
  | .ldI nnn => .code .ld [.index, .addr nnn]
  | .jpV0 nnn => .code .jp [.v 0, .addr nnn]
  | .rnd x nn => .code .rnd [.v x, .byte nn]
  | .drw x y n => .code .drw [.v x, .v y, .nibble n]
  | .skp x => .code .skp [.v x]
  | .sknp x => .code .sknp [.v x]
  | .ldVxDt x => .code .ld [.v x, .delay]
  | .ldVxK x => .code .ld [.v x, .key]
  | .ldDtVx x => .code .ld [.delay, .v x]
  | .ldStVx x => .code .ld [.sound, .v x]
  | .addI x => .code .add [.index, .v x]
  | .ldF x => .code .ld [.font, .v x]
  | .ldB x => .code .ld [.bcd, .v x]
  | .ldIVx x => .code .ld [.atIndex, .v x]
  | .ldVxI x => .code .ld [.v x, .atIndex]

/-- The instruction of a line in the forms of R79; `SHR Vx` and `SHL Vx` take Y = 0. -/
def parseCode : Mnemonic → List AsmOperand → Option Instr
  | .cls, [] => some .cls
  | .ret, [] => some .ret
  | .jp, [.addr a] => some (.jp a)
  | .jp, [.v x, .addr a] => if x = 0 then some (.jpV0 a) else none
  | .call, [.addr a] => some (.call a)
  | .se, [.v x, .byte b] => some (.seImm x b)
  | .se, [.v x, .v y] => some (.seReg x y)
  | .sne, [.v x, .byte b] => some (.sneImm x b)
  | .sne, [.v x, .v y] => some (.sneReg x y)
  | .ld, [.v x, .byte b] => some (.ldImm x b)
  | .ld, [.v x, .v y] => some (.ldReg x y)
  | .ld, [.v x, .delay] => some (.ldVxDt x)
  | .ld, [.v x, .key] => some (.ldVxK x)
  | .ld, [.v x, .atIndex] => some (.ldVxI x)
  | .ld, [.index, .addr a] => some (.ldI a)
  | .ld, [.delay, .v x] => some (.ldDtVx x)
  | .ld, [.sound, .v x] => some (.ldStVx x)
  | .ld, [.font, .v x] => some (.ldF x)
  | .ld, [.bcd, .v x] => some (.ldB x)
  | .ld, [.atIndex, .v x] => some (.ldIVx x)
  | .add, [.v x, .byte b] => some (.addImm x b)
  | .add, [.v x, .v y] => some (.addReg x y)
  | .add, [.index, .v x] => some (.addI x)
  | .or, [.v x, .v y] => some (.orReg x y)
  | .and, [.v x, .v y] => some (.andReg x y)
  | .xor, [.v x, .v y] => some (.xorReg x y)
  | .sub, [.v x, .v y] => some (.sub x y)
  | .subn, [.v x, .v y] => some (.subn x y)
  | .shr, [.v x, .v y] => some (.shr x y)
  | .shr, [.v x] => some (.shr x 0)
  | .shl, [.v x, .v y] => some (.shl x y)
  | .shl, [.v x] => some (.shl x 0)
  | .rnd, [.v x, .byte b] => some (.rnd x b)
  | .drw, [.v x, .v y, .nibble n] => some (.drw x y n)
  | .skp, [.v x] => some (.skp x)
  | .sknp, [.v x] => some (.sknp x)
  | _, _ => none

/-- The word a line assembles to: every mnemonic form is exactly one word (R80). -/
def assemble : AsmLine → Option Word
  | .code m operands => (parseCode m operands).map encode
  | .word w => some w

/-- A word as a line: an UNRECOGNIZED word is written `.word` (R79). -/
def disassemble (w : Word) : AsmLine :=
  match decode w with
  | .ok i => toAsm i
  | .error _ => .word w

end Sys2Proof.Machine
end

