-- ==== Sys2Proof/Machine/HostActions.lean ====
section
/-! DEFINITION. The host's actions of 70_reset_and_hazards.md R210: reset, load, the keypad write, and the reads and clears
of the output flags. They happen between cycles and are no part of `step`. A schedule is a list of cycles and actions
(R211); claims quantify over schedules (93 U14). `FONT` is the parameter of the machine that R9 names, and only `reset`
reads it (a cycle reads the font bytes in memory), so it is the first argument of everything that can reset. -/

namespace Sys2Proof.Machine

/-- What `load` returns (R202). -/
inductive LoadResult where
  | ok
  | tooLarge
  deriving DecidableEq, Repr

/-- The rows of the table of R210 but `cycle()`, which is `step`. -/
inductive HostAction where
  | reset
  | load (bytes : List Byte)
  | writeKeypad (keys : Vector Bool 16)
  | readDisplay
  | readRedraw
  | clearRedraw
  | readBeep
  | clearBeep
  | readUnknown
  | clearUnknown
  | readFault
  deriving DecidableEq, Repr

/-- What the host gets back (R210). -/
inductive HostReply where
  | nothing
  | loaded (result : LoadResult)
  | display (pixels : Display)
  | flag (value : Bool)
  | unknown (record : Option UnknownRecord)
  | fault (record : Option FaultRecord)
  deriving DecidableEq, Repr

/-- The state after reset of the machine with this `FONT` (R9, R38, R40): its bytes at 0 to 79. With the default font it is
`State.reset` (stated in `Obligations.ResetWithAnyFont`). -/
def State.resetWith (font : Font) : State :=
  { State.reset with mem := Memory.writeBlock [] 0 font.toList }

/-- The machine with this `FONT`, as the host runs it: `Sys2Proof.core` is the one with the default. -/
def coreWith (font : Font) : Host.Core := { Sys2Proof.core with reset := State.resetWith font }

/-- `reset()` (R200): every field of R20 to its value of R40, `FONT` to memory 0 to 79 and the fault to none (R183) with
them. Only the count of draws goes on, so that no draw is given twice (log 2). -/
def hostReset (font : Font) (s : State) : State := { State.resetWith font with drawCount := s.drawCount }

/-- `load(bytes)` (R202): to memory from 512, or, past 3584 bytes, nothing. -/
def hostLoad (bytes : List Byte) (s : State) : State × LoadResult :=
  if bytes.length ≤ 3584 then (s.memWriteBlock 512 bytes, .ok) else (s, .tooLarge)

/-- One host action: the state after it and what the host gets back (R210). Each is allowed on a faulted core (D24). -/
def hostAct (font : Font) (a : HostAction) (s : State) : State × HostReply :=
  match a with
  | .reset => (hostReset font s, .nothing)
  | .load bytes => ((hostLoad bytes s).1, .loaded (hostLoad bytes s).2)
  | .writeKeypad keys => ({ s with Key := keys }, .nothing)
  | .readDisplay => (s, .display s.Disp)
  | .readRedraw => (s, .flag s.redraw)
  | .clearRedraw => ({ s with redraw := false }, .nothing)
  | .readBeep => (s, .flag s.beep)
  | .clearBeep => ({ s with beep := false }, .nothing)
  | .readUnknown => (s, .unknown s.unknown)
  | .clearUnknown => ({ s with unknown := none }, .nothing)
  | .readFault => (s, .fault s.fault)

/-- One entry of a host schedule (R211). -/
inductive Event where
  | cycle
  | act (a : HostAction)
  deriving DecidableEq, Repr

/-- One event: a cycle, or a host action between cycles. -/
def runEvent (font : Font) (e : Event) (s : State) : Host.Outcome State Fault Refusal :=
  match e with
  | .cycle => step s
  | .act a => .next (hostAct font a s).1

/-- A run under a schedule (R101): its events in order. -/
def runSchedule (font : Font) : List Event → State → Host.Outcome State Fault Refusal
  | [], s => .next s
  | e :: es, s =>
    match runEvent font e s with
    | .next t => runSchedule font es t
    | .fault r => .fault r
    | .refused r => .refused r

/-- The boot sequence of R205 before its cycles: reset, then load (C5). -/
def boot (font : Font) (image : List Byte) (s : State) : State := (hostLoad image (hostReset font s)).1

end Sys2Proof.Machine
end

