-- ==== Sys2Proof/Safety.lean ====
section
/-! DEFINITION. The terms in which claims are made: frames over the fields of the state, the stop conditions of
40_cycle.md R101, and the bounds of 10_state.md R24 and R26. -/

namespace Sys2Proof.Machine

/-! ## Frames -/

/-- The fields of the state (R20), and the model's own two. -/
inductive Field where
  | mem | V | I | pc | Stack | sp | DT | ST | Disp | Key | opcode | redraw | beep | unknown | fault
  | drawCount | refusalMark
  deriving DecidableEq, Repr

/-- Two states agree on a field; on memory, when every address reads the same. -/
def agree (s t : State) : Field → Prop
  | .mem => ∀ a, t.memRead a = s.memRead a
  | .V => t.V = s.V
  | .I => t.I = s.I
  | .pc => t.pc = s.pc
  | .Stack => t.Stack = s.Stack
  | .sp => t.sp = s.sp
  | .DT => t.DT = s.DT
  | .ST => t.ST = s.ST
  | .Disp => t.Disp = s.Disp
  | .Key => t.Key = s.Key
  | .opcode => t.opcode = s.opcode
  | .redraw => t.redraw = s.redraw
  | .beep => t.beep = s.beep
  | .unknown => t.unknown = s.unknown
  | .fault => t.fault = s.fault
  | .drawCount => t.drawCount = s.drawCount
  | .refusalMark => t.refusalMark = s.refusalMark

/-- Every field not listed is unchanged from `s` to `t`. -/
def sameExcept (fields : List Field) (s t : State) : Prop := ∀ f, f ∉ fields → agree s t f

/-- Every general register not listed is unchanged from `s` to `t`. -/
def regsExcept (regs : List Reg) (s t : State) : Prop := ∀ r, r ∉ regs → t.getV r = s.getV r

/-- Every byte outside the `len` addresses from `base` reads the same in `t` as in `s`. -/
def memExcept (base len : Nat) (s t : State) : Prop :=
  ∀ a, ¬ (base ≤ a ∧ a < base + len) → t.memRead a = s.memRead a

/-- The fields an instruction's rule lets it write (41 to 46); `fault` for those R182 lists. -/
def fieldsWritten : Instr → List Field
  | .cls => [.Disp, .redraw, .pc]
  | .ret => [.sp, .pc, .fault]
  | .jp _ => [.pc]
  | .call _ => [.Stack, .sp, .pc, .fault]
  | .seImm _ _ => [.pc]
  | .sneImm _ _ => [.pc]
  | .seReg _ _ => [.pc]
  | .ldImm _ _ => [.V, .pc]
  | .addImm _ _ => [.V, .pc]
  | .ldReg _ _ => [.V, .pc]
  | .orReg _ _ => [.V, .pc]
  | .andReg _ _ => [.V, .pc]
  | .xorReg _ _ => [.V, .pc]
  | .addReg _ _ => [.V, .pc]
  | .sub _ _ => [.V, .pc]
  | .shr _ _ => [.V, .pc]
  | .subn _ _ => [.V, .pc]
  | .shl _ _ => [.V, .pc]
  | .sneReg _ _ => [.pc]
  | .ldI _ => [.I, .pc]
  | .jpV0 _ => [.pc]
  | .rnd _ _ => [.V, .pc, .drawCount]
  | .drw _ _ _ => [.Disp, .V, .redraw, .pc, .fault]
  | .skp _ => [.pc, .fault]
  | .sknp _ => [.pc, .fault]
  | .ldVxDt _ => [.V, .pc]
  | .ldVxK _ => [.V, .pc]
  | .ldDtVx _ => [.DT, .pc]
  | .ldStVx _ => [.ST, .pc]
  | .addI _ => [.I, .V, .pc]
  | .ldF _ => [.I, .pc]
  | .ldB _ => [.mem, .pc, .fault]
  | .ldIVx _ => [.mem, .I, .pc, .fault]
  | .ldVxI _ => [.V, .I, .pc, .fault]

/-- The general registers an instruction's rule lets it write: its destination, VF where the rule writes a flag (R22), and
V0 to VX for the block load. -/
def regsWritten : Instr → List Reg
  | .ldImm x _ | .addImm x _ | .ldReg x _ | .orReg x _ | .andReg x _ | .xorReg x _ | .rnd x _ | .ldVxDt x | .ldVxK x => [x]
  | .addReg x _ | .sub x _ | .shr x _ | .subn x _ | .shl x _ => [x, VF]
  | .drw _ _ _ | .addI _ => [VF]
  | .ldVxI x => (List.finRange 16).filter fun r => decide (r.val ≤ x.val)
  | .cls | .ret | .jp _ | .call _ | .seImm _ _ | .sneImm _ _ | .seReg _ _ | .sneReg _ _ | .ldI _ | .jpV0 _ | .skp _ | .sknp _
  | .ldDtVx _ | .ldStVx _ | .ldF _ | .ldB _ | .ldIVx _ => []

/-- How many bytes from `I` an instruction's rule lets it store (R52). -/
def bytesStored : Instr → Nat
  | .ldB _ => 3
  | .ldIVx x => x.val + 1
  | .cls | .ret | .jp _ | .call _ | .seImm _ _ | .sneImm _ _ | .seReg _ _ | .ldImm _ _ | .addImm _ _ | .ldReg _ _
  | .orReg _ _ | .andReg _ _ | .xorReg _ _ | .addReg _ _ | .sub _ _ | .shr _ _ | .subn _ _ | .shl _ _ | .sneReg _ _ | .ldI _
  | .jpV0 _ | .rnd _ _ | .drw _ _ _ | .skp _ | .sknp _ | .ldVxDt _ | .ldVxK _ | .ldDtVx _ | .ldStVx _ | .addI _ | .ldF _
  | .ldVxI _ => 0

/-- The byte an instruction's rule stores at `I + k`, for `k` below `bytesStored`: a decimal digit, hundreds first (R153), or
a register (R154). -/
def byteStored (s : State) : Instr → Nat → Byte
  | .ldB x, k => u8 ((s.getV x).toNat / 10 ^ (2 - k) % 10)
  | .ldIVx _, k => s.getV (Fin.ofNat 16 k)
  | .cls, _ | .ret, _ | .jp _, _ | .call _, _ | .seImm _ _, _ | .sneImm _ _, _ | .seReg _ _, _ | .ldImm _ _, _
  | .addImm _ _, _ | .ldReg _ _, _ | .orReg _ _, _ | .andReg _ _, _ | .xorReg _ _, _ | .addReg _ _, _ | .sub _ _, _
  | .shr _ _, _ | .subn _ _, _ | .shl _ _, _ | .sneReg _ _, _ | .ldI _, _ | .jpV0 _, _ | .rnd _ _, _ | .drw _ _ _, _
  | .skp _, _ | .sknp _, _ | .ldVxDt _, _ | .ldVxK _, _ | .ldDtVx _, _ | .ldStVx _, _ | .addI _, _ | .ldF _, _
  | .ldVxI _, _ => 0

/-- What an address holds after `len` bytes are written from `base`, byte `k` of them being `f k`. -/
def overwritten (s : State) (base len : Nat) (f : Nat → Byte) (a : Nat) : Byte :=
  if base ≤ a ∧ a < base + len then f (a - base) else s.memRead a

/-! ## Faults -/

/-- The table of R182 for the faults of an instruction: which instruction raises the kind, when, and the `info` it
records. -/
def faultCause (s : State) (i : Instr) (info : Nat) : FaultKind → Prop
  | .stackOverflow => (∃ nnn, i = .call nnn) ∧ s.sp.val = 16 ∧ info = 16
  | .stackUnderflow => i = .ret ∧ s.sp.val = 0 ∧ info = 0
  | .fetchBounds => False
  | .readBounds => info = max s.I.toNat 4096 ∧
      ((∃ x y n, i = .drw x y n ∧ info < s.I.toNat + n.val) ∨ (∃ x, i = .ldVxI x ∧ info ≤ s.I.toNat + x.val))
  | .writeBounds => info = max s.I.toNat 4096 ∧
      ((∃ x, i = .ldB x ∧ info ≤ s.I.toNat + 2) ∨ (∃ x, i = .ldIVx x ∧ info ≤ s.I.toNat + x.val))
  | .displayBounds => 2047 < info ∧
      ∃ x y n, i = .drw x y n ∧ info ∈ s.spritePixels (s.getV x).toNat (s.getV y).toNat n.val
  | .keyIndex => 15 < info ∧ ∃ x, (i = .skp x ∨ i = .sknp x) ∧ info = (s.getV x).toNat

/-! ## Stop conditions (R101) and clean states -/

/-- faulted: the state is final until a reset. -/
abbrev faulted (s : State) : Prop := s.fault ≠ none

/-- The core can fetch: no fault, and the word at `pc` is in memory (R92, R98). -/
abbrev fetchable (s : State) : Prop := s.fault = none ∧ s.pc.toNat ≤ 4094

/-- spinning: the word at `pc` is a 1NNN jump to its own address. -/
abbrev spinning (s : State) : Prop := fetchable s ∧ s.wordAtPc.toNat = 0x1000 + s.pc.toNat ∧ s.pc.toNat ≤ 0xFFF

/-- quiescent: spinning with both timers at 0. -/
abbrev quiescent (s : State) : Prop := spinning s ∧ s.DT = 0 ∧ s.ST = 0

/-- stalled: the word at `pc` is UNRECOGNIZED. -/
abbrev stalled (s : State) : Prop := fetchable s ∧ wellFormed s.wordAtPc = false

/-- waiting: the word at `pc` is FX0A and no key is pressed. -/
abbrev waiting (s : State) : Prop :=
  fetchable s ∧ (∃ x : Reg, s.wordAtPc = encode (.ldVxK x)) ∧ ∀ k : Fin 16, s.getKey k = false

/-- No fault, and no UNRECOGNIZED word executed: what a claim that a run is fault-free must ask (93 U5). -/
abbrev clean (s : State) : Prop := s.fault = none ∧ s.refusalMark = false

/-! ## Bounds -/

/-- `I` never passes 4096 (R26). -/
abbrev indexBounded (s : State) : Prop := s.I.toNat ≤ 4096

/-- Every stack entry is an address a CALL could be fetched at (R27, R110), and `pc` is at most 0x10FE (R24). -/
abbrev targetsBounded (s : State) : Prop := (∀ k : Fin 16, s.Stack[k.val].toNat ≤ 4094) ∧ s.pc.toNat ≤ 0x10FE

/-! ## Drawing, in the spec's words (R171 to R173) -/

/-- The sprite bit of a row and column: bit `7 - col` of the byte at `I + row` (R173). -/
abbrev spriteSet (s : State) (row col : Nat) : Prop := (s.memRead (s.I.toNat + row)).getLsbD (7 - col) = true

/-- The pixel index of a row and column of a sprite drawn at (VX, VY) (R172). -/
abbrev spriteAt (s : State) (x y : Reg) (row col : Nat) : Nat := ((s.getV x).toNat + col) + 64 * ((s.getV y).toNat + row)

/-- A row of the sprite passes the check: its byte is in memory and its set bits are on the display (R171). -/
abbrev rowInRange (s : State) (x y : Reg) (row : Nat) : Prop :=
  s.I.toNat + row ≤ 4095 ∧ ∀ col < 8, spriteSet s row col → spriteAt s x y row col ≤ 2047

/-- Every row of a DXYN passes the check. -/
abbrev drawable (s : State) (x y : Reg) (n : Rows) : Prop := ∀ row < n.val, rowInRange s x y row

/-- A set bit of the sprite lands on the pixel. -/
abbrev touched (s : State) (x y : Reg) (n : Rows) (p : Nat) : Prop :=
  ∃ row < n.val, ∃ col < 8, spriteSet s row col ∧ spriteAt s x y row col = p

end Sys2Proof.Machine
end

