-- ==== Sys2Proof/Certificates/Slice0/Obligations.lean ====
section
/-! DEFINITION. The statements for the provers, from the numbered rules of spec/. A result statement has as its conclusion
that `exec` answers a next state, says what that state holds, and gives its frame: `sameExcept` lists every field that may
differ, `regsExcept` every register, `memExcept` the bytes stored to. Throughout, a fault is a next state with the record in
`fault` (log 5), and a cycle's arm runs on the state at its start, `opcode` being written after it (log 6). -/

open Sys2Proof Sys2Proof.Machine

/-! ## Encoding -/

/-- Words written out from the patterns of R79 decode to the instructions they stand for, one or more of every family (R74),
and two words of the sets of R76 to UNRECOGNIZED, under the set's name, which is the model's (DESIGN CHOICE, log 29; family
0 by the spec's decision D6, log 9). -/
def Obligations.WrittenWordsDecode : Prop :=
  decode 0x00E0 = .ok .cls ∧ decode 0x00EE = .ok .ret ∧ decode 0x1228 = .ok (.jp 0x228) ∧
  decode 0x2ABC = .ok (.call 0xABC) ∧ decode 0x3342 = .ok (.seImm 3 0x42) ∧ decode 0x4A01 = .ok (.sneImm 10 0x01) ∧
  decode 0x5120 = .ok (.seReg 1 2) ∧ decode 0x6A9C = .ok (.ldImm 10 0x9C) ∧ decode 0x7FFF = .ok (.addImm 15 0xFF) ∧
  decode 0x8124 = .ok (.addReg 1 2) ∧ decode 0x8F0E = .ok (.shl 15 0) ∧ decode 0x9AB0 = .ok (.sneReg 10 11) ∧
  decode 0xAFFF = .ok (.ldI 0xFFF) ∧ decode 0xB300 = .ok (.jpV0 0x300) ∧ decode 0xC30F = .ok (.rnd 3 0x0F) ∧
  decode 0xD125 = .ok (.drw 1 2 5) ∧ decode 0xE59E = .ok (.skp 5) ∧ decode 0xE5A1 = .ok (.sknp 5) ∧
  decode 0xF265 = .ok (.ldVxI 2) ∧ decode 0x0000 = .error .family0 ∧ decode 0x812F = .error .family8

/-- DECODE AFTER ENCODE, for all 34 instructions and all operands: no bit of an encoding is dropped (R71, R74). -/
def Obligations.DecodeAfterEncode : Prop := ∀ i : Instr, decode (encode i) = .ok i

/-- ENCODE AFTER DECODE: a word that decodes is the word of its instruction, so no two words decode to one (R74). -/
def Obligations.EncodeAfterDecode : Prop := ∀ (w : Word) (i : Instr), decode w = .ok i → encode i = w

/-- The decode of R74 finds a word UNRECOGNIZED exactly when it is in one of the sets of R76, and accepts every other
(families 0, 5 and 9 by the spec's decision D6, log 9). That it rejects the word under a name, one for each set, is the
model's (DESIGN CHOICE, log 29). -/
def Obligations.DecodeRejectsTheSetsOfR76 : Prop :=
  (∀ (w : Word) (u : Unrecognized), decode w = .error u ↔ u.holds w = true) ∧
  ∀ w : Word, (∃ i, decode w = .ok i) ↔ wellFormed w = true

/-- Every mnemonic form assembles to exactly the word of its instruction, and every word, UNRECOGNIZED ones as `.word`, is
assembled from its disassembly; `.word` assembles to its word; the short form `SHR Vx` takes Y = 0 (R79, R80; the syntax is
PRESUMED, log 28), and so does the model's `SHL Vx` (DEDUCED, log 28). -/
def Obligations.AssemblyRoundTrip : Prop :=
  (∀ i : Instr, assemble (toAsm i) = some (encode i)) ∧ (∀ w : Word, assemble (disassemble w) = some w) ∧
  (∀ w : Word, assemble (.word w) = some w) ∧
  ∀ x : Reg, assemble (.code .shr [.v x]) = some (encode (.shr x 0)) ∧
    assemble (.code .shl [.v x]) = some (encode (.shl x 0))

/-! ## The cycle -/

/-- R91: fetch composes the two bytes at `pc` and `pc + 1`, high byte first. That the execute arm runs on the state at the
start of the cycle, and that only a cycle that does not fault records the word, the model infers from R33 and R99 (log 6,
DEDUCED; R99 is the spec's decision D1). -/
def Obligations.FetchComposesHighByteFirst : Prop :=
  ∀ s, fetchable s → ∃ w : Word,
    w.toNat = (s.memRead s.pc.toNat).toNat * 256 + (s.memRead (s.pc.toNat + 1)).toNat ∧
    step s = finishCycle w (execWord w s) ∧
    ∀ t, step s = .next t → t.fault = none → t.opcode = w

/-- A STEP RUNS THE DECODED INSTRUCTION (R90, R93, R94): when the word at `pc` decodes to `i`, the step is `exec i` at that
state; if that raised no fault, the fetched word is recorded and the timers tick after it, and if it did, nothing more
happens. That the arm runs on the state at the start of the cycle, with the word recorded after it and only without a fault,
the model infers from R33 and R99 (DEDUCED, log 6; R99 is the spec's decision D1). -/
def Obligations.StepRunsTheDecodedInstruction : Prop :=
  ∀ s i t, fetchable s → decode s.wordAtPc = .ok i → exec i s = .next t →
    step s = .next (if t.fault = none then (t.setOpcode s.wordAtPc).tick else t)

/-- Every cycle and every instruction answers a next state, on every state: the core never stops by itself (R90, R101). A
fault is a next state, by the spec's decision D1 and the model's choice of form (DESIGN CHOICE, log 5), and `exec` answers
on a faulted state too, where no step runs it (DESIGN CHOICE, log 25). -/
def Obligations.EveryStepAnswers : Prop :=
  (∀ s, ∃ t, step s = .next t) ∧ ∀ i s, ∃ t, exec i s = .next t

/-- R92 (the spec's decision D4): a fetch with `pc > 4094` faults before reading, and changes nothing but `fault`. -/
def Obligations.FetchPastMemoryFaults : Prop :=
  ∀ s, s.fault = none → 4094 < s.pc.toNat →
    step s = .next { s with
      fault := some ⟨.fetchBounds, s.pc, none, if 4096 ≤ s.pc.toNat then s.pc.toNat else 4096⟩ }

/-- R98 (the spec's decision D1): a cycle of a faulted core changes nothing, and of the host's actions only `reset` clears
the fault. -/
def Obligations.FaultedCoreIsInert : Prop :=
  ∀ (font : Font) s, s.fault ≠ none →
    step s = .next s ∧ (hostAct font .reset s).1.fault = none ∧
    ∀ a, a ≠ .reset → (hostAct font a s).1.fault = s.fault

/-- R183 (the spec's decision D1): under every host schedule without a reset a faulted core keeps its fault. -/
def Obligations.FaultLastsUntilReset : Prop :=
  ∀ (font : Font) (es : List Event) s, s.fault ≠ none → Event.act .reset ∉ es →
    ∃ t, runSchedule font es s = .next t ∧ t.fault = s.fault

/-- R99 (the spec's decision D1): a cycle that faults, in fetch or in execute, leaves every field but `fault` as it was at the
start of the cycle. Whole machine, over all instructions. -/
def Obligations.FaultsArePrecise : Prop :=
  ∀ s t, s.fault = none → step s = .next t → t.fault ≠ none → t = { s with fault := t.fault }

/-- R181, R182 (the spec's decisions D1, D26): the record of a fault names the unchanged `pc`; a fetch fault has no word,
and any other the fetched word of an instruction that R182 lists for the kind, with the number it gives. No other instruction
faults. The pixels of a sprite, for DisplayBounds, rest on bit 7 being its leftmost column (D28, PRESUMED, log 18). -/
def Obligations.FaultRecordsNameTheirCause : Prop :=
  (∀ s t r, s.fault = none → step s = .next t → t.fault = some r →
    r.pc = s.pc ∧
    ((4094 < s.pc.toNat ∧ r.kind = .fetchBounds ∧ r.word = none ∧ r.info = max s.pc.toNat 4096) ∨
     (s.pc.toNat ≤ 4094 ∧ r.word = some s.wordAtPc ∧
      ∃ i, decode s.wordAtPc = .ok i ∧ faultCause s i r.info r.kind))) ∧
  [FaultKind.stackOverflow, .stackUnderflow, .fetchBounds, .readBounds, .writeBounds, .displayBounds, .keyIndex].map
    FaultKind.code = [1, 2, 3, 4, 5, 6, 7]

/-- R96: after the execute arm of every cycle that does not fault, whatever its word, each timer above 0 is decremented, and
`beep` is set when the sound timer was 1; nothing else changes after the arm but `opcode`. That the arm runs on the state at
the start of the cycle, and that R91's write of `opcode` comes after it, the model infers from R33 and R99 (DEDUCED, log 6;
R99 is the spec's decision D1). -/
def Obligations.TimersTickEveryCycle : Prop :=
  ∀ s t, step s = .next t → t.fault = none →
    ∃ u, execWord s.wordAtPc s = .next u ∧
      t.DT.toNat = u.DT.toNat - 1 ∧ t.ST.toNat = u.ST.toNat - 1 ∧
      t.beep = (u.beep || decide (u.ST.toNat = 1)) ∧ sameExcept [.DT, .ST, .beep, .opcode] u t

/-- R97 (with the spec's decision D15, and D6 for the decode-ambiguous words, log 9; the refusal mark is the model's, log
8): a cycle on an UNRECOGNIZED word records it with its address, ticks, and leaves `pc` and the rest, so that the core is
stalled again. -/
def Obligations.UnrecognizedWordStalls : Prop :=
  ∀ s, stalled s → ∃ t, step s = .next t ∧ stalled t ∧
    t.unknown = some ⟨s.pc, s.wordAtPc⟩ ∧ t.refusalMark = true ∧ t.opcode = s.wordAtPc ∧
    t.DT.toNat = s.DT.toNat - 1 ∧ t.ST.toNat = s.ST.toNat - 1 ∧ t.beep = (s.beep || decide (s.ST.toNat = 1)) ∧
    sameExcept [.unknown, .refusalMark, .opcode, .DT, .ST, .beep] s t

/-- R101, stalled (the spec's decisions D27 and, for the decode-ambiguous words, D6, log 9): any number of further cycles
changes only the timers, `beep`, `opcode` and `unknown` (and the model's refusal mark, log 8), and the core is still
stalled. -/
def Obligations.StalledCoreStaysStalled : Prop :=
  ∀ s k, stalled s → ∃ t, Sys2Proof.core.run k s = .next t ∧ stalled t ∧
    sameExcept [.unknown, .refusalMark, .opcode, .DT, .ST, .beep] s t

/-- R101, spinning, quiescent and waiting: each further cycle of a spinning core changes only the timers, `beep` and `opcode`,
and it spins on; a quiescent core changes `opcode` alone, to the jump's word (95, program P1); a core that waits for a key
ticks its timers and waits on (R163). -/
def Obligations.SpinningAndWaitingCoresGoOn : Prop :=
  (∀ s, spinning s → ∃ t, step s = .next t ∧ spinning t ∧ sameExcept [.DT, .ST, .beep, .opcode] s t) ∧
  (∀ s, quiescent s → step s = .next (s.setOpcode s.wordAtPc)) ∧
  ∀ s, waiting s → ∃ t, step s = .next t ∧ waiting t ∧
    t.DT.toNat = s.DT.toNat - 1 ∧ t.ST.toNat = s.ST.toNat - 1 ∧ sameExcept [.DT, .ST, .beep, .opcode] s t

/-- R23, which the spec infers from the instruction rules: a cycle that does not fault leaves `pc` advanced by 2, or by 4 (a
skip), or at the target of a control transfer, or unchanged (FX0A with no key pressed, and an UNRECOGNIZED word). -/
def Obligations.ProgramCounterMovesInFourWays : Prop :=
  ∀ s t, s.fault = none → step s = .next t → t.fault = none →
    match decode s.wordAtPc with
    | .ok (.jp nnn) => t.pc = u16 nnn.toNat
    | .ok (.call nnn) => t.pc = u16 nnn.toNat
    | .ok (.jpV0 nnn) => t.pc = u16 ((s.getV 0).toNat + nnn.toNat)
    | .ok .ret => t.pc = u16 ((s.Stack[s.sp.val - 1]).toNat + 2)
    | .ok (.seImm _ _) | .ok (.sneImm _ _) | .ok (.seReg _ _) | .ok (.sneReg _ _) | .ok (.skp _) | .ok (.sknp _) =>
      t.pc = u16 (s.pc.toNat + 2) ∨ t.pc = u16 (s.pc.toNat + 4)
    | .ok (.ldVxK _) => t.pc = if ∃ k, s.getKey k = true then u16 (s.pc.toNat + 2) else s.pc
    | .ok _ => t.pc = u16 (s.pc.toNat + 2)
    | .error _ => t.pc = s.pc

/-! ## Control transfer -/

/-- R111, R113 (the spec's decisions D5, D25): JP and JP_V0 set `pc` to NNN and to V0 + NNN, which is not reduced modulo
4096, and change nothing else. -/
def Obligations.JumpsSetPc : Prop :=
  (∀ (nnn : Addr12) s, decode (u16 (0x1000 + nnn.toNat)) = .ok (.jp nnn) ∧
    ∃ t, exec (.jp nnn) s = .next t ∧ t.pc.toNat = nnn.toNat ∧ sameExcept [.pc] s t) ∧
  ∀ (nnn : Addr12) s, decode (u16 (0xB000 + nnn.toNat)) = .ok (.jpV0 nnn) ∧
    ∃ t, exec (.jpV0 nnn) s = .next t ∧ t.pc.toNat = (s.getV 0).toNat + nnn.toNat ∧ sameExcept [.pc] s t

/-- R112 (the spec's decisions D2, D3): CALL pushes its own address and jumps; with 16 addresses on the stack it raises
StackOverflow and does nothing. -/
def Obligations.CallPushesItsOwnAddress : Prop :=
  ∀ (nnn : Addr12) s, decode (u16 (0x2000 + nnn.toNat)) = .ok (.call nnn) ∧
    (s.sp.val < 16 → ∃ t, exec (.call nnn) s = .next t ∧
      t.pc.toNat = nnn.toNat ∧ t.sp.val = s.sp.val + 1 ∧
      (∀ k : Fin 16, t.Stack[k.val] = if k.val = s.sp.val then s.pc else s.Stack[k.val]) ∧
      sameExcept [.pc, .sp, .Stack] s t) ∧
    (s.sp.val = 16 → exec (.call nnn) s =
      .next { s with fault := some ⟨.stackOverflow, s.pc, some (u16 (0x2000 + nnn.toNat)), 16⟩ })

/-- R110 (the spec's decisions D2, D3): RET goes to 2 past the most recent return address, which stays in its entry; with an
empty stack it raises StackUnderflow and does nothing. -/
def Obligations.ReturnGoesTwoPastTheTop : Prop :=
  decode 0x00EE = .ok .ret ∧ ∀ s,
    (0 < s.sp.val → ∃ t, exec .ret s = .next t ∧
      t.sp.val = s.sp.val - 1 ∧ t.pc = u16 ((s.Stack[s.sp.val - 1]).toNat + 2) ∧ sameExcept [.pc, .sp] s t) ∧
    (s.sp.val = 0 → exec .ret s =
      .next { s with fault := some ⟨.stackUnderflow, s.pc, some 0x00EE, 0⟩ })

/-- R110 after R112: a RET right after a CALL returns to 2 past the CALL, at the depth before it, with every live entry as
it was. -/
def Obligations.ReturnUndoesCall : Prop :=
  ∀ (nnn : Addr12) s, s.sp.val < 16 → ∃ t u, exec (.call nnn) s = .next t ∧ exec .ret t = .next u ∧
    u.pc = u16 (s.pc.toNat + 2) ∧ u.sp = s.sp ∧
    (∀ k : Fin 16, k.val < s.sp.val → u.Stack[k.val] = s.Stack[k.val]) ∧ sameExcept [.pc, .Stack] s u

/-! ## Skips -/

/-- R120, R121: SE_imm skips, advancing `pc` by 4 instead of 2, when VX equals NN, SNE_imm when it does not; nothing else
changes. -/
def Obligations.SkipOnImmediate : Prop :=
  ∀ (x : Reg) (nn : Byte) s,
    decode (u16 (0x3000 + 256 * x.val + nn.toNat)) = .ok (.seImm x nn) ∧
    decode (u16 (0x4000 + 256 * x.val + nn.toNat)) = .ok (.sneImm x nn) ∧
    (∃ t, exec (.seImm x nn) s = .next t ∧
      t.pc = u16 (s.pc.toNat + if (s.getV x).toNat = nn.toNat then 4 else 2) ∧ sameExcept [.pc] s t) ∧
    ∃ t, exec (.sneImm x nn) s = .next t ∧
      t.pc = u16 (s.pc.toNat + if (s.getV x).toNat = nn.toNat then 2 else 4) ∧ sameExcept [.pc] s t

/-- R122, R123 (encodings by the spec's decision D6): SE_reg skips when VX equals VY, SNE_reg when it does not; nothing else
changes. -/
def Obligations.SkipOnRegister : Prop :=
  ∀ (x y : Reg) s,
    decode (u16 (0x5000 + 256 * x.val + 16 * y.val)) = .ok (.seReg x y) ∧
    decode (u16 (0x9000 + 256 * x.val + 16 * y.val)) = .ok (.sneReg x y) ∧
    (∃ t, exec (.seReg x y) s = .next t ∧
      t.pc = u16 (s.pc.toNat + if (s.getV x).toNat = (s.getV y).toNat then 4 else 2) ∧ sameExcept [.pc] s t) ∧
    ∃ t, exec (.sneReg x y) s = .next t ∧
      t.pc = u16 (s.pc.toNat + if (s.getV x).toNat = (s.getV y).toNat then 2 else 4) ∧ sameExcept [.pc] s t

/-- R124, R125 (the spec's decisions D10, D21): SKP and SKNP skip on the key numbered by VX; a number above 15 raises
KeyIndex and does nothing. -/
def Obligations.SkipOnKey : Prop :=
  ∀ (x : Reg) s,
    decode (u16 (0xE09E + 256 * x.val)) = .ok (.skp x) ∧ decode (u16 (0xE0A1 + 256 * x.val)) = .ok (.sknp x) ∧
    (∀ k : Fin 16, (s.getV x).toNat = k.val →
      (∃ t, exec (.skp x) s = .next t ∧
        t.pc = u16 (s.pc.toNat + if s.Key[k.val] = true then 4 else 2) ∧ sameExcept [.pc] s t) ∧
      ∃ t, exec (.sknp x) s = .next t ∧
        t.pc = u16 (s.pc.toNat + if s.Key[k.val] = true then 2 else 4) ∧ sameExcept [.pc] s t) ∧
    (15 < (s.getV x).toNat →
      exec (.skp x) s = .next { s with
        fault := some ⟨.keyIndex, s.pc, some (u16 (0xE09E + 256 * x.val)), (s.getV x).toNat⟩ } ∧
      exec (.sknp x) s = .next { s with
        fault := some ⟨.keyIndex, s.pc, some (u16 (0xE0A1 + 256 * x.val)), (s.getV x).toNat⟩ })

/-! ## Registers and arithmetic -/

/-- R130, R131, R132: LD_imm and ADD_imm write NN, and the sum modulo 256, to VX; LD_reg copies VY to VX. No flag is written:
with X = 0xF VF is the destination, else it is unchanged. -/
def Obligations.LoadsAndImmediateAdd : Prop :=
  (∀ (x y : Reg) s,
    decode (u16 (0x8000 + 256 * x.val + 16 * y.val)) = .ok (.ldReg x y) ∧
    ∃ t, exec (.ldReg x y) s = .next t ∧ t.getV x = s.getV y ∧ t.pc = u16 (s.pc.toNat + 2) ∧
      regsExcept [x] s t ∧ sameExcept [.V, .pc] s t) ∧
  ∀ (x : Reg) (nn : Byte) s,
    decode (u16 (0x6000 + 256 * x.val + nn.toNat)) = .ok (.ldImm x nn) ∧
    decode (u16 (0x7000 + 256 * x.val + nn.toNat)) = .ok (.addImm x nn) ∧
    (∃ t, exec (.ldImm x nn) s = .next t ∧ t.getV x = nn ∧ t.pc = u16 (s.pc.toNat + 2) ∧
      regsExcept [x] s t ∧ sameExcept [.V, .pc] s t) ∧
    ∃ t, exec (.addImm x nn) s = .next t ∧ (t.getV x).toNat = ((s.getV x).toNat + nn.toNat) % 256 ∧
      t.pc = u16 (s.pc.toNat + 2) ∧ regsExcept [x] s t ∧ sameExcept [.V, .pc] s t

/-- R133 to R135: OR, AND and XOR bit by bit; that VF keeps its value unless X = 0xF is the spec's decision D11 (log 13). -/
def Obligations.LogicBitByBit : Prop :=
  ∀ (x y : Reg) s,
    decode (u16 (0x8001 + 256 * x.val + 16 * y.val)) = .ok (.orReg x y) ∧
    decode (u16 (0x8002 + 256 * x.val + 16 * y.val)) = .ok (.andReg x y) ∧
    decode (u16 (0x8003 + 256 * x.val + 16 * y.val)) = .ok (.xorReg x y) ∧
    (∃ t, exec (.orReg x y) s = .next t ∧
      (∀ b, (t.getV x).getLsbD b = ((s.getV x).getLsbD b || (s.getV y).getLsbD b)) ∧
      t.pc = u16 (s.pc.toNat + 2) ∧ regsExcept [x] s t ∧ sameExcept [.V, .pc] s t) ∧
    (∃ t, exec (.andReg x y) s = .next t ∧
      (∀ b, (t.getV x).getLsbD b = ((s.getV x).getLsbD b && (s.getV y).getLsbD b)) ∧
      t.pc = u16 (s.pc.toNat + 2) ∧ regsExcept [x] s t ∧ sameExcept [.V, .pc] s t) ∧
    ∃ t, exec (.xorReg x y) s = .next t ∧
      (∀ b, (t.getV x).getLsbD b = ((s.getV x).getLsbD b ^^ (s.getV y).getLsbD b)) ∧
      t.pc = u16 (s.pc.toNat + 2) ∧ regsExcept [x] s t ∧ sameExcept [.V, .pc] s t

/-- R136: ADD_reg writes the sum modulo 256 to VX and the carry to VF; that the flag is written last, over the sum when
X = 0xF, is the spec's decision D7 (log 10). -/
def Obligations.AddSetsCarry : Prop :=
  ∀ (x y : Reg) s,
    decode (u16 (0x8004 + 256 * x.val + 16 * y.val)) = .ok (.addReg x y) ∧
    ∃ t, exec (.addReg x y) s = .next t ∧
      (x ≠ VF → (t.getV x).toNat = ((s.getV x).toNat + (s.getV y).toNat) % 256) ∧
      (t.getV VF).toNat = (if 255 < (s.getV x).toNat + (s.getV y).toNat then 1 else 0) ∧
      t.pc = u16 (s.pc.toNat + 2) ∧ regsExcept [x, VF] s t ∧ sameExcept [.V, .pc] s t

/-- R137, R139: SUB and SUBN write VX - VY and VY - VX modulo 256 to VX, and to VF 0 when they borrow, else 1; the flag last
(the spec's decision D7, log 10). -/
def Obligations.SubtractSetsNotBorrow : Prop :=
  ∀ (x y : Reg) s,
    decode (u16 (0x8005 + 256 * x.val + 16 * y.val)) = .ok (.sub x y) ∧
    decode (u16 (0x8007 + 256 * x.val + 16 * y.val)) = .ok (.subn x y) ∧
    (∃ t, exec (.sub x y) s = .next t ∧
      (x ≠ VF → ((t.getV x).toNat : Int) = ((s.getV x).toNat - (s.getV y).toNat : Int) % 256) ∧
      (t.getV VF).toNat = (if (s.getV x).toNat < (s.getV y).toNat then 0 else 1) ∧
      t.pc = u16 (s.pc.toNat + 2) ∧ regsExcept [x, VF] s t ∧ sameExcept [.V, .pc] s t) ∧
    ∃ t, exec (.subn x y) s = .next t ∧
      (x ≠ VF → ((t.getV x).toNat : Int) = ((s.getV y).toNat - (s.getV x).toNat : Int) % 256) ∧
      (t.getV VF).toNat = (if (s.getV y).toNat < (s.getV x).toNat then 0 else 1) ∧
      t.pc = u16 (s.pc.toNat + 2) ∧ regsExcept [x, VF] s t ∧ sameExcept [.V, .pc] s t

/-- R138, R140: SHR and SHL shift VX by 1, whatever VY holds, and write the bit shifted out to VF, last (the spec's decision
D7, log 10). -/
def Obligations.ShiftsKeepTheBitShiftedOut : Prop :=
  ∀ (x y : Reg) s,
    decode (u16 (0x8006 + 256 * x.val + 16 * y.val)) = .ok (.shr x y) ∧
    decode (u16 (0x800E + 256 * x.val + 16 * y.val)) = .ok (.shl x y) ∧
    (∃ t, exec (.shr x y) s = .next t ∧
      (x ≠ VF → ∀ b, (t.getV x).getLsbD b = (s.getV x).getLsbD (b + 1)) ∧
      (t.getV VF).toNat = (if (s.getV x).getLsbD 0 = true then 1 else 0) ∧
      t.pc = u16 (s.pc.toNat + 2) ∧ regsExcept [x, VF] s t ∧ sameExcept [.V, .pc] s t) ∧
    ∃ t, exec (.shl x y) s = .next t ∧
      (x ≠ VF → (t.getV x).getLsbD 0 = false ∧ ∀ b < 7, (t.getV x).getLsbD (b + 1) = (s.getV x).getLsbD b) ∧
      (t.getV VF).toNat = (if (s.getV x).getLsbD 7 = true then 1 else 0) ∧
      t.pc = u16 (s.pc.toNat + 2) ∧ regsExcept [x, VF] s t ∧ sameExcept [.V, .pc] s t

/-- R141: RND writes NN AND the draw to VX; the draw is a FREE VALUE (`Config.draw`, log 1), so the statement holds for every
byte it may be; bits of VX outside NN are 0, and the next RND takes a fresh draw (log 2). -/
def Obligations.RandomByteIsMasked : Prop :=
  ∀ (x : Reg) (nn : Byte) s,
    decode (u16 (0xC000 + 256 * x.val + nn.toNat)) = .ok (.rnd x nn) ∧
    ∃ t, exec (.rnd x nn) s = .next t ∧
      (∀ b, (t.getV x).getLsbD b = (nn.getLsbD b && (Config.draw s.drawCount).getLsbD b)) ∧
      (∀ b, nn.getLsbD b = false → (t.getV x).getLsbD b = false) ∧
      t.drawCount = s.drawCount + 1 ∧ t.pc = u16 (s.pc.toNat + 2) ∧
      regsExcept [x] s t ∧ sameExcept [.V, .pc, .drawCount] s t

/-! ## Index and memory -/

/-- R150, R152: LD_I sets `I` to NNN and LD_F to 5 times VX, not masked; nothing else changes but `pc`. -/
def Obligations.IndexLoads : Prop :=
  (∀ (nnn : Addr12) s, decode (u16 (0xA000 + nnn.toNat)) = .ok (.ldI nnn) ∧
    ∃ t, exec (.ldI nnn) s = .next t ∧ t.I.toNat = nnn.toNat ∧ t.pc = u16 (s.pc.toNat + 2) ∧
      sameExcept [.I, .pc] s t) ∧
  ∀ (x : Reg) s, decode (u16 (0xF029 + 256 * x.val)) = .ok (.ldF x) ∧
    ∃ t, exec (.ldF x) s = .next t ∧ t.I.toNat = 5 * (s.getV x).toNat ∧ t.pc = u16 (s.pc.toNat + 2) ∧
      sameExcept [.I, .pc] s t

/-- R151: ADD_I reduces the exact sum of `I` and VX modulo 0xFFF, and sets VF when the sum before that exceeds 0xFFF; that a
sum of exactly 0xFFF is reduced to 0 is the spec's decision D12 (log 12), that VF is written last D7 (log 10). -/
def Obligations.IndexAddReducesModulo4095 : Prop :=
  ∀ (x : Reg) s, decode (u16 (0xF01E + 256 * x.val)) = .ok (.addI x) ∧
    ∃ t, exec (.addI x) s = .next t ∧
      t.I.toNat = (s.I.toNat + (s.getV x).toNat) % 4095 ∧
      (t.getV VF).toNat = (if 4095 < s.I.toNat + (s.getV x).toNat then 1 else 0) ∧
      t.pc = u16 (s.pc.toNat + 2) ∧ regsExcept [VF] s t ∧ sameExcept [.I, .V, .pc] s t

/-- R153: LD_B stores the three decimal digits of VX at `I`, hundreds first, and no other byte; a store past 4095 raises
WriteBounds with the first such address and writes nothing (the spec's decision D4, log 15). -/
def Obligations.DecimalDigitsAreStored : Prop :=
  ∀ (x : Reg) s, decode (u16 (0xF033 + 256 * x.val)) = .ok (.ldB x) ∧
    (s.I.toNat + 2 ≤ 4095 → ∃ t, exec (.ldB x) s = .next t ∧
      (s.getV x).toNat = 100 * (t.memRead s.I.toNat).toNat + 10 * (t.memRead (s.I.toNat + 1)).toNat
        + (t.memRead (s.I.toNat + 2)).toNat ∧
      (t.memRead s.I.toNat).toNat ≤ 2 ∧ (t.memRead (s.I.toNat + 1)).toNat ≤ 9 ∧
      (t.memRead (s.I.toNat + 2)).toNat ≤ 9 ∧
      t.pc = u16 (s.pc.toNat + 2) ∧ memExcept s.I.toNat 3 s t ∧ sameExcept [.mem, .pc] s t) ∧
    (4095 < s.I.toNat + 2 → exec (.ldB x) s = .next { s with
      fault := some ⟨.writeBounds, s.pc, some (u16 (0xF033 + 256 * x.val)), max s.I.toNat 4096⟩ })

/-- R154: LD_I_Vx stores V0 to VX at `I` and leaves `I` past the block; a block past 4095 raises WriteBounds and writes
nothing (the spec's decision D4, log 15). -/
def Obligations.BlockStore : Prop :=
  ∀ (x : Reg) s, decode (u16 (0xF055 + 256 * x.val)) = .ok (.ldIVx x) ∧
    (s.I.toNat + x.val ≤ 4095 → ∃ t, exec (.ldIVx x) s = .next t ∧
      (∀ r : Reg, r.val ≤ x.val → t.memRead (s.I.toNat + r.val) = s.getV r) ∧
      t.I.toNat = s.I.toNat + x.val + 1 ∧ t.pc = u16 (s.pc.toNat + 2) ∧
      memExcept s.I.toNat (x.val + 1) s t ∧ sameExcept [.mem, .I, .pc] s t) ∧
    (4095 < s.I.toNat + x.val → exec (.ldIVx x) s = .next { s with
      fault := some ⟨.writeBounds, s.pc, some (u16 (0xF055 + 256 * x.val)), max s.I.toNat 4096⟩ })

/-- R155: LD_Vx_I loads V0 to VX from `I` and leaves `I` past the block; a block past 4095 raises ReadBounds and loads
nothing (the spec's decision D4, log 15). -/
def Obligations.BlockLoad : Prop :=
  ∀ (x : Reg) s, decode (u16 (0xF065 + 256 * x.val)) = .ok (.ldVxI x) ∧
    (s.I.toNat + x.val ≤ 4095 → ∃ t, exec (.ldVxI x) s = .next t ∧
      (∀ r : Reg, t.getV r = if r.val ≤ x.val then s.memRead (s.I.toNat + r.val) else s.getV r) ∧
      t.I.toNat = s.I.toNat + x.val + 1 ∧ t.pc = u16 (s.pc.toNat + 2) ∧ sameExcept [.V, .I, .pc] s t) ∧
    (4095 < s.I.toNat + x.val → exec (.ldVxI x) s = .next { s with
      fault := some ⟨.readBounds, s.pc, some (u16 (0xF065 + 256 * x.val)), max s.I.toNat 4096⟩ })

/-- R155 is the inverse of R154: a block stored and loaded again, from the same index and over any registers, gives the
registers stored. -/
def Obligations.BlockLoadUndoesBlockStore : Prop :=
  ∀ (x : Reg) s (v : Vector Byte 16), s.I.toNat + x.val ≤ 4095 →
    ∃ t u, exec (.ldIVx x) s = .next t ∧ exec (.ldVxI x) { t with I := s.I, V := v } = .next u ∧
      ∀ r : Reg, u.getV r = if r.val ≤ x.val then s.getV r else v[r.val]

/-- R62, R227: after FX33 or FX55 every address reads as the bytes stored, where they were stored, and as before elsewhere;
the very next cycle fetches the word so made at `pc + 2`, whichever of its bytes the store covers, and runs it, with no fence
(`pc` at most 4092: past that there is no next word). The first cycle after the host's `load` fetches from the image, and runs it, likewise. -/
def Obligations.StoreIsSeenByTheNextFetch : Prop :=
  (∀ s i, fetchable s → s.pc.toNat ≤ 4092 → decode s.wordAtPc = .ok i → 0 < bytesStored i →
    s.I.toNat + bytesStored i ≤ 4096 →
    ∃ t w, step s = .next t ∧ t.fault = none ∧ t.pc.toNat = s.pc.toNat + 2 ∧
      (∀ a, t.memRead a = overwritten s s.I.toNat (bytesStored i) (byteStored s i) a) ∧
      w = composeWord (overwritten s s.I.toNat (bytesStored i) (byteStored s i) (s.pc.toNat + 2))
        (overwritten s s.I.toNat (bytesStored i) (byteStored s i) (s.pc.toNat + 3)) ∧
      fetch t = some w ∧ step t = finishCycle w (execWord w t)) ∧
  ∀ (font : Font) (bytes : List Byte) s, fetchable s → bytes.length ≤ 3584 →
    ∃ t w, (hostAct font (.load bytes) s).1 = t ∧
      (∀ a, t.memRead a = overwritten s 512 bytes.length (fun k => bytes.getD k 0) a) ∧
      w = composeWord (overwritten s 512 bytes.length (fun k => bytes.getD k 0) s.pc.toNat)
        (overwritten s 512 bytes.length (fun k => bytes.getD k 0) (s.pc.toNat + 1)) ∧
      fetch t = some w ∧ step t = finishCycle w (execWord w t)

/-! ## Timers and keypad -/

/-- R160, R161: LD_Vx_DT reads the delay timer before the tick; LD_DT_Vx writes it, the same cycle's tick decrements what it
wrote, and a LD_Vx_DT in the next cycle reads that. -/
def Obligations.DelayTimerAccess : Prop :=
  (∀ (x : Reg) s,
    decode (u16 (0xF007 + 256 * x.val)) = .ok (.ldVxDt x) ∧ decode (u16 (0xF015 + 256 * x.val)) = .ok (.ldDtVx x) ∧
    (∃ t, exec (.ldVxDt x) s = .next t ∧ t.getV x = s.DT ∧ t.pc = u16 (s.pc.toNat + 2) ∧
      regsExcept [x] s t ∧ sameExcept [.V, .pc] s t) ∧
    ∃ t, exec (.ldDtVx x) s = .next t ∧ t.DT = s.getV x ∧ t.pc = u16 (s.pc.toNat + 2) ∧ sameExcept [.DT, .pc] s t) ∧
  (∀ s (x : Reg), fetchable s → decode s.wordAtPc = .ok (.ldVxDt x) →
    ∃ t, step s = .next t ∧ t.getV x = s.DT ∧ t.DT.toNat = s.DT.toNat - 1) ∧
  ∀ s (x : Reg), fetchable s → decode s.wordAtPc = .ok (.ldDtVx x) →
    ∃ t, step s = .next t ∧ t.DT.toNat = (s.getV x).toNat - 1 ∧
      ∀ y, fetchable t → decode t.wordAtPc = .ok (.ldVxDt y) →
        ∃ u, step t = .next u ∧ (u.getV y).toNat = (s.getV x).toNat - 1

/-- R162: LD_ST_Vx writes the sound timer; the same cycle's tick decrements it, and sets `beep` in this cycle when VX is 1; no
other value sets or clears `beep`. -/
def Obligations.SoundTimerWrite : Prop :=
  (∀ (x : Reg) s, decode (u16 (0xF018 + 256 * x.val)) = .ok (.ldStVx x) ∧
    ∃ t, exec (.ldStVx x) s = .next t ∧ t.ST = s.getV x ∧ t.pc = u16 (s.pc.toNat + 2) ∧ sameExcept [.ST, .pc] s t) ∧
  ∀ s (x : Reg), fetchable s → decode s.wordAtPc = .ok (.ldStVx x) →
    ∃ t, step s = .next t ∧ t.ST.toNat = (s.getV x).toNat - 1 ∧
      t.beep = (s.beep || decide ((s.getV x).toNat = 1))

/-- R216, R162: from a sound timer at n > 0, along any run of n cycles that neither fault nor execute FX18, the timer counts
down by one a cycle, `beep` is not set before the n-th cycle, and the n-th sets it. -/
def Obligations.BeepComesWhenTheSoundTimerRunsOut : Prop :=
  ∀ (n : Nat) (path : Nat → State), 0 < n → (path 0).ST.toNat = n →
    (∀ j < n, step (path j) = .next (path (j + 1)) ∧ (path (j + 1)).fault = none ∧
      ∀ x, decode (path j).wordAtPc ≠ .ok (.ldStVx x)) →
    (∀ j ≤ n, (path j).ST.toNat = n - j) ∧ (∀ j < n, (path j).beep = (path 0).beep) ∧ (path n).beep = true

/-- R163: LD_Vx_K writes the number of the highest pressed key to VX and advances; with no key pressed it changes nothing,
so that the wait is `pc` staying on the word (the spec's decision D16). -/
def Obligations.KeyWaitTakesTheHighestKey : Prop :=
  ∀ (x : Reg) s, decode (u16 (0xF00A + 256 * x.val)) = .ok (.ldVxK x) ∧
    (∀ k : Fin 16, s.Key[k.val] = true → (∀ j : Fin 16, s.Key[j.val] = true → j ≤ k) →
      ∃ t, exec (.ldVxK x) s = .next t ∧ (t.getV x).toNat = k.val ∧ t.pc = u16 (s.pc.toNat + 2) ∧
        regsExcept [x] s t ∧ sameExcept [.V, .pc] s t) ∧
    ((∀ j : Fin 16, s.Key[j.val] = false) → exec (.ldVxK x) s = .next s)

/-! ## Display -/

/-- R170: CLS turns every pixel off and sets `redraw`, even on a clear display; VF and everything else stay. -/
def Obligations.ClearTurnsEveryPixelOff : Prop :=
  decode 0x00E0 = .ok .cls ∧ ∀ s, ∃ t, exec .cls s = .next t ∧
    (∀ p ≤ 2047, pixel t.Disp p = false) ∧ t.redraw = true ∧ t.pc = u16 (s.pc.toNat + 2) ∧
    sameExcept [.Disp, .redraw, .pc] s t

/-- R171, R172, R173: DRW inverts exactly the pixels on which a set sprite bit lands, VF says whether one of them was on
before, `redraw` is set, and `I` and memory stay. The coordinates are read first (the spec's decision D8, log 11); bit 7 of
a row is its leftmost column (D28, log 18). -/
def Obligations.DrawInvertsTheTouchedPixels : Prop :=
  ∀ (x y : Reg) (n : Rows) s,
    decode (u16 (0xD000 + 256 * x.val + 16 * y.val + n.val)) = .ok (.drw x y n) ∧
    (drawable s x y n → ∃ t, exec (.drw x y n) s = .next t ∧
      (∀ p ≤ 2047, touched s x y n p → pixel t.Disp p = !pixel s.Disp p) ∧
      (∀ p ≤ 2047, ¬ touched s x y n p → pixel t.Disp p = pixel s.Disp p) ∧
      ((∃ p ≤ 2047, touched s x y n p ∧ pixel s.Disp p = true) → (t.getV VF).toNat = 1) ∧
      ((¬ ∃ p ≤ 2047, touched s x y n p ∧ pixel s.Disp p = true) → (t.getV VF).toNat = 0) ∧
      t.redraw = true ∧ t.pc = u16 (s.pc.toNat + 2) ∧
      regsExcept [VF] s t ∧ sameExcept [.Disp, .V, .redraw, .pc] s t)

/-- R171, R184 (the spec's decisions D4, D9, D28, logs 15, 16 and 18, the last PRESUMED): a DRW that is not in range reports
its first failing access, rows in order, the row's address before its set bits, these in column order; and it changes
nothing. -/
def Obligations.DrawReportsTheFirstFailingAccess : Prop :=
  ∀ (x y : Reg) (n : Rows) s (row : Nat), row < n.val → (∀ r < row, rowInRange s x y r) →
    (4095 < s.I.toNat + row → exec (.drw x y n) s = .next { s with
      fault := some ⟨.readBounds, s.pc, some (u16 (0xD000 + 256 * x.val + 16 * y.val + n.val)), s.I.toNat + row⟩ }) ∧
    ∀ col < 8, s.I.toNat + row ≤ 4095 → spriteSet s row col → 2047 < spriteAt s x y row col →
      (∀ c < col, spriteSet s row c → spriteAt s x y row c ≤ 2047) →
      exec (.drw x y n) s = .next { s with
        fault := some ⟨.displayBounds, s.pc, some (u16 (0xD000 + 256 * x.val + 16 * y.val + n.val)),
          spriteAt s x y row col⟩ }

/-- The source's property of DXYN (95, SRC-7; R171), for every sprite: drawn twice at one place it restores the display, and
the second draw reports a collision exactly when the sprite touched a pixel that was off. The first draw leaves a coordinate
register as it was unless it is VF, which then holds the flag: the second draw is at the same place whenever both
registers still hold what they held. The order of reads is the spec's decision D8 (log 11); which pixels are touched rests on
bit 7 being the leftmost column (D28, PRESUMED, log 18). -/
def Obligations.DrawingTwiceRestoresTheDisplay : Prop :=
  ∀ (x y : Reg) (n : Rows) s, drawable s x y n →
    ∃ t, exec (.drw x y n) s = .next t ∧ (x ≠ VF → t.getV x = s.getV x) ∧ (y ≠ VF → t.getV y = s.getV y) ∧
      ((t.getV VF).toNat = 1 ↔ ∃ p ≤ 2047, touched s x y n p ∧ pixel s.Disp p = true) ∧ (t.getV VF).toNat ≤ 1 ∧
      (t.getV x = s.getV x → t.getV y = s.getV y →
        ∃ u, exec (.drw x y n) t = .next u ∧ u.Disp = s.Disp ∧
          ((u.getV VF).toNat = 1 ↔ ∃ p ≤ 2047, touched s x y n p ∧ pixel s.Disp p = false))

/-! ## Whole-machine rules -/

/-- FRAMES of all 34 instructions: a next state differs only in the fields the instruction's rule writes (`fieldsWritten`),
in the registers it writes (`regsWritten`), and in the bytes it stores, which start at `I` (`bytesStored`; R22, R25, R27,
R31, R32, R52). CXNN also writes the model's count of draws (log 2). -/
def Obligations.InstructionsWriteOnlyWhatTheirRuleNames : Prop :=
  ∀ i s t, exec i s = .next t →
    sameExcept (fieldsWritten i) s t ∧ regsExcept (regsWritten i) s t ∧ memExcept s.I.toNat (bytesStored i) s t

/-- R27, R31, R32, R34, R35, R37, R52: in a cycle no byte of memory changes but by FX33 or FX55, no pixel but by 00E0 or DXYN,
no stack entry or `sp` but by 2NNN or 00EE; the core never writes a key; `redraw` rises only by 00E0 or DXYN, `beep` only in
a cycle that does not fault and whose tick finds `ST` at 1, and the core never clears either; `unknown` changes only on an
UNRECOGNIZED word, as does the model's refusal mark (DESIGN CHOICE, log 8), and the model's draw count (log 2) only by
CXNN. -/
def Obligations.OnlyTheNamedInstructionsWriteEachPart : Prop :=
  ∀ s t, step s = .next t →
    ((∀ x, decode s.wordAtPc ≠ .ok (.ldB x) ∧ decode s.wordAtPc ≠ .ok (.ldIVx x)) → agree s t .mem) ∧
    (decode s.wordAtPc ≠ .ok .cls → (∀ x y n, decode s.wordAtPc ≠ .ok (.drw x y n)) → t.Disp = s.Disp) ∧
    (decode s.wordAtPc ≠ .ok .ret → (∀ nnn, decode s.wordAtPc ≠ .ok (.call nnn)) → t.Stack = s.Stack ∧ t.sp = s.sp) ∧
    t.Key = s.Key ∧
    (s.redraw = true → t.redraw = true) ∧
    (decode s.wordAtPc ≠ .ok .cls → (∀ x y n, decode s.wordAtPc ≠ .ok (.drw x y n)) → t.redraw = s.redraw) ∧
    (s.beep = true → t.beep = true) ∧
    (t.beep ≠ s.beep → fetchable s ∧ t.fault = none ∧ ∃ u, execWord s.wordAtPc s = .next u ∧ u.ST.toNat = 1) ∧
    (wellFormed s.wordAtPc = true → t.unknown = s.unknown ∧ t.refusalMark = s.refusalMark) ∧
    ((∀ x nn, decode s.wordAtPc ≠ .ok (.rnd x nn)) → t.drawCount = s.drawCount)

/-- INVARIANT (log 4): the canonical form of memory is kept by every step and every host action. -/
def Obligations.MemoryStaysCanonical : Prop :=
  (∀ s t, s.mem.wf → step s = .next t → t.mem.wf) ∧
  (∀ font s a, s.mem.wf → (hostAct font a s).1.mem.wf) ∧ ∀ font, (State.resetWith font).mem.wf

/-- INVARIANT (R26, which infers it, with the spec's decision D25): `I` never passes 4096, so its writes never wrap. -/
def Obligations.IndexStaysBounded : Prop :=
  ∀ s t, indexBounded s → step s = .next t → indexBounded t

/-- INVARIANT (R24, R110, with the spec's decisions D2, D5, D25): every stack entry stays at an address a CALL can be
fetched at, and `pc` at most 0x10FE, so it never wraps. -/
def Obligations.TargetsStayBounded : Prop :=
  ∀ s t, targetsBounded s → step s = .next t → targetsBounded t

/-- The state after reset, with the default font or any other, meets the three invariants and is clean: its memory is in
canonical form (the model's, log 4), `I`, `pc` and the stack are R40's, `fault` is none by the spec's decision D14 (log 19),
and the refusal mark is false by the model's choice (DESIGN CHOICE, log 8). -/
def Obligations.ResetMeetsTheInvariants : Prop :=
  (State.reset.mem.wf ∧ indexBounded State.reset ∧ targetsBounded State.reset ∧ clean State.reset) ∧
  ∀ font, (State.resetWith font).mem.wf ∧ indexBounded (State.resetWith font) ∧ targetsBounded (State.resetWith font) ∧
    clean (State.resetWith font)

/-- R100, R7: only CXNN reads the draw. A cycle on any other word is the same whatever the draws are: the count of draws (log
2) passes through it untouched. -/
def Obligations.OnlyRandomReadsTheDraw : Prop :=
  ∀ s t n, (∀ x nn, decode s.wordAtPc ≠ .ok (.rnd x nn)) → step s = .next t →
    step { s with drawCount := n } = .next { t with drawCount := n }

/-- R33 to R37, R42: no instruction reads `opcode`, `redraw`, `beep` or `unknown` (or the model's refusal mark, log 8): a
program cannot learn what they hold. -/
def Obligations.OutputsDoNotInfluenceTheCore : Prop :=
  ∀ s t o r b u m, step s = .next t → ∃ o' r' b' u' m',
    step { s with opcode := o, redraw := r, beep := b, unknown := u, refusalMark := m } =
      .next { t with opcode := o', redraw := r', beep := b', unknown := u', refusalMark := m' }

/-- 93 U8, U9, U10, U12: the four optional parameters matter only where the source leaves a point open: the order of result
and flag only when X = 0xF, the coordinate order only when X or Y is 0xF, FX1E's reduction only at a sum of exactly 0xFFF,
the logic operations' reset only in VF. -/
def Obligations.ParametersMatterOnlyWhereTheSourceIsOpen : Prop :=
  (∀ (v : Config.Variant) (x y : Reg) s, x ≠ VF →
    execAddRegWith v x y s = execAddReg x y s ∧ execSubWith v x y s = execSub x y s ∧
    execShrWith v x y s = execShr x y s ∧ execSubnWith v x y s = execSubn x y s ∧
    execShlWith v x y s = execShl x y s) ∧
  (∀ (v : Config.Variant) (x y : Reg) (n : Rows) s, x ≠ VF → y ≠ VF → execDrwWith v x y n s = execDrw x y n s) ∧
  (∀ (v : Config.Variant) (x : Reg) s, s.I.toNat + (s.getV x).toNat ≠ 0xFFF → execAddIWith v x s = execAddI x s) ∧
  ∀ (v : Config.Variant) (x y : Reg) s t u,
    (execOrWith v x y s = .next t → execOr x y s = .next u → regsExcept [VF] u t ∧ sameExcept [.V] u t) ∧
    (execAndWith v x y s = .next t → execAnd x y s = .next u → regsExcept [VF] u t ∧ sameExcept [.V] u t) ∧
    (execXorWith v x y s = .next t → execXor x y s = .next u → regsExcept [VF] u t ∧ sameExcept [.V] u t)

/-! ## Reset, loading, host -/

/-- R40, R38: the state after reset, field by field, with the 80 bytes of the table of R38 written out (PRESUMED, log 3).
`beep`, `opcode`, `unknown` and `fault` are the spec's decision D14 (log 19). -/
def Obligations.ResetValues : Prop :=
  ((List.range 80).map State.reset.memRead =
    [0xF0, 0x90, 0x90, 0x90, 0xF0] ++ [0x20, 0x60, 0x20, 0x20, 0x70] ++
    [0xF0, 0x10, 0xF0, 0x80, 0xF0] ++ [0xF0, 0x10, 0xF0, 0x10, 0xF0] ++
    [0x90, 0x90, 0xF0, 0x10, 0x10] ++ [0xF0, 0x80, 0xF0, 0x10, 0xF0] ++
    [0xF0, 0x80, 0xF0, 0x90, 0xF0] ++ [0xF0, 0x10, 0x20, 0x40, 0x40] ++
    [0xF0, 0x90, 0xF0, 0x90, 0xF0] ++ [0xF0, 0x90, 0xF0, 0x10, 0xF0] ++
    [0xF0, 0x90, 0xF0, 0x90, 0x90] ++ [0xE0, 0x90, 0xE0, 0x90, 0xE0] ++
    [0xF0, 0x80, 0x80, 0x80, 0xF0] ++ [0xE0, 0x90, 0x90, 0x90, 0xE0] ++
    [0xF0, 0x80, 0xF0, 0x80, 0xF0] ++ [0xF0, 0x80, 0xF0, 0x80, 0x80]) ∧
  (∀ a, 80 ≤ a → State.reset.memRead a = 0) ∧
  (∀ r, State.reset.getV r = 0) ∧ State.reset.I = 0 ∧ State.reset.pc = 0x200 ∧
  (∀ k : Fin 16, State.reset.Stack[k.val] = 0) ∧ State.reset.sp = 0 ∧ State.reset.DT = 0 ∧ State.reset.ST = 0 ∧
  (∀ p, pixel State.reset.Disp p = false) ∧ (∀ k, State.reset.getKey k = false) ∧
  State.reset.redraw = true ∧ State.reset.beep = false ∧ State.reset.opcode = 0 ∧
  State.reset.unknown = none ∧ State.reset.fault = none

/-- R9, R38, R40, R200: the machine with any `FONT` starts, and after `reset()` stands again, with that font at 0 to 79, zero
above, and the reset values in every other field but the count of draws (log 2); with the default font its start is
`State.reset`. -/
def Obligations.ResetWithAnyFont : Prop :=
  (∀ font : Font,
    (∀ a (h : a < 80), (State.resetWith font).memRead a = font[a]) ∧
    (∀ a, 80 ≤ a → (State.resetWith font).memRead a = 0) ∧ sameExcept [.mem] State.reset (State.resetWith font) ∧
    (coreWith font).reset = State.resetWith font ∧
    ∀ s, (∀ a, (hostAct font .reset s).1.memRead a = (State.resetWith font).memRead a) ∧
      sameExcept [.drawCount] (State.resetWith font) (hostAct font .reset s).1) ∧
  State.resetWith defaultFont = State.reset ∧ coreWith defaultFont = Sys2Proof.core

/-- R202: `load` of at most 3584 bytes answers Ok and writes them from 512 and nothing else, on a faulted core too (the spec's
decision D24); a longer one answers TooLarge and changes nothing. -/
def Obligations.LoadWritesTheImageOrNothing : Prop :=
  ∀ (font : Font) (bytes : List Byte) s,
    (bytes.length ≤ 3584 →
      (hostAct font (.load bytes) s).2 = .loaded .ok ∧
      (∀ k (h : k < bytes.length), (hostAct font (.load bytes) s).1.memRead (512 + k) = bytes[k]) ∧
      memExcept 512 bytes.length s (hostAct font (.load bytes) s).1 ∧
      sameExcept [.mem] s (hostAct font (.load bytes) s).1) ∧
    (3584 < bytes.length → hostAct font (.load bytes) s = (s, .loaded .tooLarge))

/-- R200, R210, for every `FONT`: `reset()` on any state, faulted or not, gives the reset state in every field of the spec,
while the count of draws goes on (the model's choice, log 2); `load` touches memory alone, and says whether the image fitted;
the keypad write and the three clears touch their own field and give nothing back; the reads give back their field and
change nothing. -/
def Obligations.HostActionsTouchOnlyTheirPart : Prop :=
  ∀ (font : Font) s,
    hostAct font .reset s = ({ State.resetWith font with drawCount := s.drawCount }, .nothing) ∧
    (∀ bytes, (hostAct font (.load bytes) s).2 = .loaded (if bytes.length ≤ 3584 then .ok else .tooLarge) ∧
      memExcept 512 3584 s (hostAct font (.load bytes) s).1 ∧ sameExcept [.mem] s (hostAct font (.load bytes) s).1) ∧
    (∀ keys, hostAct font (.writeKeypad keys) s = ({ s with Key := keys }, .nothing)) ∧
    hostAct font .clearRedraw s = ({ s with redraw := false }, .nothing) ∧
    hostAct font .clearBeep s = ({ s with beep := false }, .nothing) ∧
    hostAct font .clearUnknown s = ({ s with unknown := none }, .nothing) ∧
    hostAct font .readDisplay s = (s, .display s.Disp) ∧ hostAct font .readRedraw s = (s, .flag s.redraw) ∧
    hostAct font .readBeep s = (s, .flag s.beep) ∧ hostAct font .readUnknown s = (s, .unknown s.unknown) ∧
    hostAct font .readFault s = (s, .fault s.fault)

/-- R205, R206 (the spec's decision D19, log 27), for every `FONT` (log 3): after reset and load, from any state, the image's
first word stands at `pc` = 0x200 and the first cycle runs it, on a state with an empty stack, zero registers, a clear
display and the font in place; only the count of draws (log 2) is not the reset state's. -/
def Obligations.BootRunsTheImage : Prop :=
  ∀ (font : Font) (high low : Byte) (rest : List Byte) s, (high :: low :: rest).length ≤ 3584 →
    (boot font (high :: low :: rest) s).pc = 0x200 ∧
    fetch (boot font (high :: low :: rest) s) = some (composeWord high low) ∧
    (∀ i t, decode (composeWord high low) = .ok i → exec i (boot font (high :: low :: rest) s) = .next t →
      step (boot font (high :: low :: rest) s) =
        .next (if t.fault = none then (t.setOpcode (composeWord high low)).tick else t)) ∧
    (∀ a (h : a < 80), (boot font (high :: low :: rest) s).memRead a = font[a]) ∧
    sameExcept [.mem, .drawCount] State.reset (boot font (high :: low :: rest) s)
end

