-- ==== Sys2Proof/Laws/State.lean ====
section
/-! SUPPORT. One lemma per field per update of the state, each true by definition, so that no later proof unfolds an
update; and the same for the reads of a register, of memory and of a key. -/

namespace Sys2Proof.Machine

/-! ### `State.setV` -/

@[simp] theorem State.setV_mem (s : State) (x : Reg) (b : Byte) : (s.setV x b).mem = s.mem := rfl
@[simp] theorem State.setV_V (s : State) (x : Reg) (b : Byte) : (s.setV x b).V = s.V.set x.val b := rfl
@[simp] theorem State.setV_I (s : State) (x : Reg) (b : Byte) : (s.setV x b).I = s.I := rfl
@[simp] theorem State.setV_pc (s : State) (x : Reg) (b : Byte) : (s.setV x b).pc = s.pc := rfl
@[simp] theorem State.setV_Stack (s : State) (x : Reg) (b : Byte) : (s.setV x b).Stack = s.Stack := rfl
@[simp] theorem State.setV_sp (s : State) (x : Reg) (b : Byte) : (s.setV x b).sp = s.sp := rfl
@[simp] theorem State.setV_DT (s : State) (x : Reg) (b : Byte) : (s.setV x b).DT = s.DT := rfl
@[simp] theorem State.setV_ST (s : State) (x : Reg) (b : Byte) : (s.setV x b).ST = s.ST := rfl
@[simp] theorem State.setV_Disp (s : State) (x : Reg) (b : Byte) : (s.setV x b).Disp = s.Disp := rfl
@[simp] theorem State.setV_Key (s : State) (x : Reg) (b : Byte) : (s.setV x b).Key = s.Key := rfl
@[simp] theorem State.setV_opcode (s : State) (x : Reg) (b : Byte) : (s.setV x b).opcode = s.opcode := rfl
@[simp] theorem State.setV_redraw (s : State) (x : Reg) (b : Byte) : (s.setV x b).redraw = s.redraw := rfl
@[simp] theorem State.setV_beep (s : State) (x : Reg) (b : Byte) : (s.setV x b).beep = s.beep := rfl
@[simp] theorem State.setV_unknown (s : State) (x : Reg) (b : Byte) : (s.setV x b).unknown = s.unknown := rfl
@[simp] theorem State.setV_fault (s : State) (x : Reg) (b : Byte) : (s.setV x b).fault = s.fault := rfl
@[simp] theorem State.setV_drawCount (s : State) (x : Reg) (b : Byte) : (s.setV x b).drawCount = s.drawCount := rfl
@[simp] theorem State.setV_refusalMark (s : State) (x : Reg) (b : Byte) : (s.setV x b).refusalMark = s.refusalMark := rfl

@[simp] theorem State.memRead_setV (s : State) (x : Reg) (b : Byte) (q : Nat) : (s.setV x b).memRead q = s.memRead q := rfl
@[simp] theorem State.getKey_setV (s : State) (x : Reg) (b : Byte) (q : Fin 16) : (s.setV x b).getKey q = s.getKey q := rfl

/-! ### `State.setBlockV` -/

@[simp] theorem State.setBlockV_mem (s : State) (x : Reg) (f : Nat → Byte) : (s.setBlockV x f).mem = s.mem := rfl
@[simp] theorem State.setBlockV_V (s : State) (x : Reg) (f : Nat → Byte) : (s.setBlockV x f).V = Vector.ofFn fun k => if k.val ≤ x.val then f k.val else s.V[k.val] := rfl
@[simp] theorem State.setBlockV_I (s : State) (x : Reg) (f : Nat → Byte) : (s.setBlockV x f).I = s.I := rfl
@[simp] theorem State.setBlockV_pc (s : State) (x : Reg) (f : Nat → Byte) : (s.setBlockV x f).pc = s.pc := rfl
@[simp] theorem State.setBlockV_Stack (s : State) (x : Reg) (f : Nat → Byte) : (s.setBlockV x f).Stack = s.Stack := rfl
@[simp] theorem State.setBlockV_sp (s : State) (x : Reg) (f : Nat → Byte) : (s.setBlockV x f).sp = s.sp := rfl
@[simp] theorem State.setBlockV_DT (s : State) (x : Reg) (f : Nat → Byte) : (s.setBlockV x f).DT = s.DT := rfl
@[simp] theorem State.setBlockV_ST (s : State) (x : Reg) (f : Nat → Byte) : (s.setBlockV x f).ST = s.ST := rfl
@[simp] theorem State.setBlockV_Disp (s : State) (x : Reg) (f : Nat → Byte) : (s.setBlockV x f).Disp = s.Disp := rfl
@[simp] theorem State.setBlockV_Key (s : State) (x : Reg) (f : Nat → Byte) : (s.setBlockV x f).Key = s.Key := rfl
@[simp] theorem State.setBlockV_opcode (s : State) (x : Reg) (f : Nat → Byte) : (s.setBlockV x f).opcode = s.opcode := rfl
@[simp] theorem State.setBlockV_redraw (s : State) (x : Reg) (f : Nat → Byte) : (s.setBlockV x f).redraw = s.redraw := rfl
@[simp] theorem State.setBlockV_beep (s : State) (x : Reg) (f : Nat → Byte) : (s.setBlockV x f).beep = s.beep := rfl
@[simp] theorem State.setBlockV_unknown (s : State) (x : Reg) (f : Nat → Byte) : (s.setBlockV x f).unknown = s.unknown := rfl
@[simp] theorem State.setBlockV_fault (s : State) (x : Reg) (f : Nat → Byte) : (s.setBlockV x f).fault = s.fault := rfl
@[simp] theorem State.setBlockV_drawCount (s : State) (x : Reg) (f : Nat → Byte) : (s.setBlockV x f).drawCount = s.drawCount := rfl
@[simp] theorem State.setBlockV_refusalMark (s : State) (x : Reg) (f : Nat → Byte) : (s.setBlockV x f).refusalMark = s.refusalMark := rfl

@[simp] theorem State.memRead_setBlockV (s : State) (x : Reg) (f : Nat → Byte) (q : Nat) : (s.setBlockV x f).memRead q = s.memRead q := rfl
@[simp] theorem State.getKey_setBlockV (s : State) (x : Reg) (f : Nat → Byte) (q : Fin 16) : (s.setBlockV x f).getKey q = s.getKey q := rfl

/-! ### `State.setI` -/

@[simp] theorem State.setI_mem (s : State) (v : Nat) : (s.setI v).mem = s.mem := rfl
@[simp] theorem State.setI_V (s : State) (v : Nat) : (s.setI v).V = s.V := rfl
@[simp] theorem State.setI_I (s : State) (v : Nat) : (s.setI v).I = u16 v := rfl
@[simp] theorem State.setI_pc (s : State) (v : Nat) : (s.setI v).pc = s.pc := rfl
@[simp] theorem State.setI_Stack (s : State) (v : Nat) : (s.setI v).Stack = s.Stack := rfl
@[simp] theorem State.setI_sp (s : State) (v : Nat) : (s.setI v).sp = s.sp := rfl
@[simp] theorem State.setI_DT (s : State) (v : Nat) : (s.setI v).DT = s.DT := rfl
@[simp] theorem State.setI_ST (s : State) (v : Nat) : (s.setI v).ST = s.ST := rfl
@[simp] theorem State.setI_Disp (s : State) (v : Nat) : (s.setI v).Disp = s.Disp := rfl
@[simp] theorem State.setI_Key (s : State) (v : Nat) : (s.setI v).Key = s.Key := rfl
@[simp] theorem State.setI_opcode (s : State) (v : Nat) : (s.setI v).opcode = s.opcode := rfl
@[simp] theorem State.setI_redraw (s : State) (v : Nat) : (s.setI v).redraw = s.redraw := rfl
@[simp] theorem State.setI_beep (s : State) (v : Nat) : (s.setI v).beep = s.beep := rfl
@[simp] theorem State.setI_unknown (s : State) (v : Nat) : (s.setI v).unknown = s.unknown := rfl
@[simp] theorem State.setI_fault (s : State) (v : Nat) : (s.setI v).fault = s.fault := rfl
@[simp] theorem State.setI_drawCount (s : State) (v : Nat) : (s.setI v).drawCount = s.drawCount := rfl
@[simp] theorem State.setI_refusalMark (s : State) (v : Nat) : (s.setI v).refusalMark = s.refusalMark := rfl

@[simp] theorem State.getV_setI (s : State) (v : Nat) (r : Reg) : (s.setI v).getV r = s.getV r := rfl
@[simp] theorem State.memRead_setI (s : State) (v : Nat) (q : Nat) : (s.setI v).memRead q = s.memRead q := rfl
@[simp] theorem State.getKey_setI (s : State) (v : Nat) (q : Fin 16) : (s.setI v).getKey q = s.getKey q := rfl

/-! ### `State.setPc` -/

@[simp] theorem State.setPc_mem (s : State) (v : Nat) : (s.setPc v).mem = s.mem := rfl
@[simp] theorem State.setPc_V (s : State) (v : Nat) : (s.setPc v).V = s.V := rfl
@[simp] theorem State.setPc_I (s : State) (v : Nat) : (s.setPc v).I = s.I := rfl
@[simp] theorem State.setPc_pc (s : State) (v : Nat) : (s.setPc v).pc = u16 v := rfl
@[simp] theorem State.setPc_Stack (s : State) (v : Nat) : (s.setPc v).Stack = s.Stack := rfl
@[simp] theorem State.setPc_sp (s : State) (v : Nat) : (s.setPc v).sp = s.sp := rfl
@[simp] theorem State.setPc_DT (s : State) (v : Nat) : (s.setPc v).DT = s.DT := rfl
@[simp] theorem State.setPc_ST (s : State) (v : Nat) : (s.setPc v).ST = s.ST := rfl
@[simp] theorem State.setPc_Disp (s : State) (v : Nat) : (s.setPc v).Disp = s.Disp := rfl
@[simp] theorem State.setPc_Key (s : State) (v : Nat) : (s.setPc v).Key = s.Key := rfl
@[simp] theorem State.setPc_opcode (s : State) (v : Nat) : (s.setPc v).opcode = s.opcode := rfl
@[simp] theorem State.setPc_redraw (s : State) (v : Nat) : (s.setPc v).redraw = s.redraw := rfl
@[simp] theorem State.setPc_beep (s : State) (v : Nat) : (s.setPc v).beep = s.beep := rfl
@[simp] theorem State.setPc_unknown (s : State) (v : Nat) : (s.setPc v).unknown = s.unknown := rfl
@[simp] theorem State.setPc_fault (s : State) (v : Nat) : (s.setPc v).fault = s.fault := rfl
@[simp] theorem State.setPc_drawCount (s : State) (v : Nat) : (s.setPc v).drawCount = s.drawCount := rfl
@[simp] theorem State.setPc_refusalMark (s : State) (v : Nat) : (s.setPc v).refusalMark = s.refusalMark := rfl

@[simp] theorem State.getV_setPc (s : State) (v : Nat) (r : Reg) : (s.setPc v).getV r = s.getV r := rfl
@[simp] theorem State.memRead_setPc (s : State) (v : Nat) (q : Nat) : (s.setPc v).memRead q = s.memRead q := rfl
@[simp] theorem State.getKey_setPc (s : State) (v : Nat) (q : Fin 16) : (s.setPc v).getKey q = s.getKey q := rfl

/-! ### `State.adv` -/

@[simp] theorem State.adv_mem (s : State) (k : Nat) : (s.adv k).mem = s.mem := rfl
@[simp] theorem State.adv_V (s : State) (k : Nat) : (s.adv k).V = s.V := rfl
@[simp] theorem State.adv_I (s : State) (k : Nat) : (s.adv k).I = s.I := rfl
@[simp] theorem State.adv_pc (s : State) (k : Nat) : (s.adv k).pc = u16 (s.pc.toNat + k) := rfl
@[simp] theorem State.adv_Stack (s : State) (k : Nat) : (s.adv k).Stack = s.Stack := rfl
@[simp] theorem State.adv_sp (s : State) (k : Nat) : (s.adv k).sp = s.sp := rfl
@[simp] theorem State.adv_DT (s : State) (k : Nat) : (s.adv k).DT = s.DT := rfl
@[simp] theorem State.adv_ST (s : State) (k : Nat) : (s.adv k).ST = s.ST := rfl
@[simp] theorem State.adv_Disp (s : State) (k : Nat) : (s.adv k).Disp = s.Disp := rfl
@[simp] theorem State.adv_Key (s : State) (k : Nat) : (s.adv k).Key = s.Key := rfl
@[simp] theorem State.adv_opcode (s : State) (k : Nat) : (s.adv k).opcode = s.opcode := rfl
@[simp] theorem State.adv_redraw (s : State) (k : Nat) : (s.adv k).redraw = s.redraw := rfl
@[simp] theorem State.adv_beep (s : State) (k : Nat) : (s.adv k).beep = s.beep := rfl
@[simp] theorem State.adv_unknown (s : State) (k : Nat) : (s.adv k).unknown = s.unknown := rfl
@[simp] theorem State.adv_fault (s : State) (k : Nat) : (s.adv k).fault = s.fault := rfl
@[simp] theorem State.adv_drawCount (s : State) (k : Nat) : (s.adv k).drawCount = s.drawCount := rfl
@[simp] theorem State.adv_refusalMark (s : State) (k : Nat) : (s.adv k).refusalMark = s.refusalMark := rfl

@[simp] theorem State.getV_adv (s : State) (k : Nat) (r : Reg) : (s.adv k).getV r = s.getV r := rfl
@[simp] theorem State.memRead_adv (s : State) (k : Nat) (q : Nat) : (s.adv k).memRead q = s.memRead q := rfl
@[simp] theorem State.getKey_adv (s : State) (k : Nat) (q : Fin 16) : (s.adv k).getKey q = s.getKey q := rfl

/-! ### `State.setDT` -/

@[simp] theorem State.setDT_mem (s : State) (b : Byte) : (s.setDT b).mem = s.mem := rfl
@[simp] theorem State.setDT_V (s : State) (b : Byte) : (s.setDT b).V = s.V := rfl
@[simp] theorem State.setDT_I (s : State) (b : Byte) : (s.setDT b).I = s.I := rfl
@[simp] theorem State.setDT_pc (s : State) (b : Byte) : (s.setDT b).pc = s.pc := rfl
@[simp] theorem State.setDT_Stack (s : State) (b : Byte) : (s.setDT b).Stack = s.Stack := rfl
@[simp] theorem State.setDT_sp (s : State) (b : Byte) : (s.setDT b).sp = s.sp := rfl
@[simp] theorem State.setDT_DT (s : State) (b : Byte) : (s.setDT b).DT = b := rfl
@[simp] theorem State.setDT_ST (s : State) (b : Byte) : (s.setDT b).ST = s.ST := rfl
@[simp] theorem State.setDT_Disp (s : State) (b : Byte) : (s.setDT b).Disp = s.Disp := rfl
@[simp] theorem State.setDT_Key (s : State) (b : Byte) : (s.setDT b).Key = s.Key := rfl
@[simp] theorem State.setDT_opcode (s : State) (b : Byte) : (s.setDT b).opcode = s.opcode := rfl
@[simp] theorem State.setDT_redraw (s : State) (b : Byte) : (s.setDT b).redraw = s.redraw := rfl
@[simp] theorem State.setDT_beep (s : State) (b : Byte) : (s.setDT b).beep = s.beep := rfl
@[simp] theorem State.setDT_unknown (s : State) (b : Byte) : (s.setDT b).unknown = s.unknown := rfl
@[simp] theorem State.setDT_fault (s : State) (b : Byte) : (s.setDT b).fault = s.fault := rfl
@[simp] theorem State.setDT_drawCount (s : State) (b : Byte) : (s.setDT b).drawCount = s.drawCount := rfl
@[simp] theorem State.setDT_refusalMark (s : State) (b : Byte) : (s.setDT b).refusalMark = s.refusalMark := rfl

@[simp] theorem State.getV_setDT (s : State) (b : Byte) (r : Reg) : (s.setDT b).getV r = s.getV r := rfl
@[simp] theorem State.memRead_setDT (s : State) (b : Byte) (q : Nat) : (s.setDT b).memRead q = s.memRead q := rfl
@[simp] theorem State.getKey_setDT (s : State) (b : Byte) (q : Fin 16) : (s.setDT b).getKey q = s.getKey q := rfl

/-! ### `State.setST` -/

@[simp] theorem State.setST_mem (s : State) (b : Byte) : (s.setST b).mem = s.mem := rfl
@[simp] theorem State.setST_V (s : State) (b : Byte) : (s.setST b).V = s.V := rfl
@[simp] theorem State.setST_I (s : State) (b : Byte) : (s.setST b).I = s.I := rfl
@[simp] theorem State.setST_pc (s : State) (b : Byte) : (s.setST b).pc = s.pc := rfl
@[simp] theorem State.setST_Stack (s : State) (b : Byte) : (s.setST b).Stack = s.Stack := rfl
@[simp] theorem State.setST_sp (s : State) (b : Byte) : (s.setST b).sp = s.sp := rfl
@[simp] theorem State.setST_DT (s : State) (b : Byte) : (s.setST b).DT = s.DT := rfl
@[simp] theorem State.setST_ST (s : State) (b : Byte) : (s.setST b).ST = b := rfl
@[simp] theorem State.setST_Disp (s : State) (b : Byte) : (s.setST b).Disp = s.Disp := rfl
@[simp] theorem State.setST_Key (s : State) (b : Byte) : (s.setST b).Key = s.Key := rfl
@[simp] theorem State.setST_opcode (s : State) (b : Byte) : (s.setST b).opcode = s.opcode := rfl
@[simp] theorem State.setST_redraw (s : State) (b : Byte) : (s.setST b).redraw = s.redraw := rfl
@[simp] theorem State.setST_beep (s : State) (b : Byte) : (s.setST b).beep = s.beep := rfl
@[simp] theorem State.setST_unknown (s : State) (b : Byte) : (s.setST b).unknown = s.unknown := rfl
@[simp] theorem State.setST_fault (s : State) (b : Byte) : (s.setST b).fault = s.fault := rfl
@[simp] theorem State.setST_drawCount (s : State) (b : Byte) : (s.setST b).drawCount = s.drawCount := rfl
@[simp] theorem State.setST_refusalMark (s : State) (b : Byte) : (s.setST b).refusalMark = s.refusalMark := rfl

@[simp] theorem State.getV_setST (s : State) (b : Byte) (r : Reg) : (s.setST b).getV r = s.getV r := rfl
@[simp] theorem State.memRead_setST (s : State) (b : Byte) (q : Nat) : (s.setST b).memRead q = s.memRead q := rfl
@[simp] theorem State.getKey_setST (s : State) (b : Byte) (q : Fin 16) : (s.setST b).getKey q = s.getKey q := rfl

/-! ### `State.setDisp` -/

@[simp] theorem State.setDisp_mem (s : State) (d : Display) : (s.setDisp d).mem = s.mem := rfl
@[simp] theorem State.setDisp_V (s : State) (d : Display) : (s.setDisp d).V = s.V := rfl
@[simp] theorem State.setDisp_I (s : State) (d : Display) : (s.setDisp d).I = s.I := rfl
@[simp] theorem State.setDisp_pc (s : State) (d : Display) : (s.setDisp d).pc = s.pc := rfl
@[simp] theorem State.setDisp_Stack (s : State) (d : Display) : (s.setDisp d).Stack = s.Stack := rfl
@[simp] theorem State.setDisp_sp (s : State) (d : Display) : (s.setDisp d).sp = s.sp := rfl
@[simp] theorem State.setDisp_DT (s : State) (d : Display) : (s.setDisp d).DT = s.DT := rfl
@[simp] theorem State.setDisp_ST (s : State) (d : Display) : (s.setDisp d).ST = s.ST := rfl
@[simp] theorem State.setDisp_Disp (s : State) (d : Display) : (s.setDisp d).Disp = d := rfl
@[simp] theorem State.setDisp_Key (s : State) (d : Display) : (s.setDisp d).Key = s.Key := rfl
@[simp] theorem State.setDisp_opcode (s : State) (d : Display) : (s.setDisp d).opcode = s.opcode := rfl
@[simp] theorem State.setDisp_redraw (s : State) (d : Display) : (s.setDisp d).redraw = s.redraw := rfl
@[simp] theorem State.setDisp_beep (s : State) (d : Display) : (s.setDisp d).beep = s.beep := rfl
@[simp] theorem State.setDisp_unknown (s : State) (d : Display) : (s.setDisp d).unknown = s.unknown := rfl
@[simp] theorem State.setDisp_fault (s : State) (d : Display) : (s.setDisp d).fault = s.fault := rfl
@[simp] theorem State.setDisp_drawCount (s : State) (d : Display) : (s.setDisp d).drawCount = s.drawCount := rfl
@[simp] theorem State.setDisp_refusalMark (s : State) (d : Display) : (s.setDisp d).refusalMark = s.refusalMark := rfl

@[simp] theorem State.getV_setDisp (s : State) (d : Display) (r : Reg) : (s.setDisp d).getV r = s.getV r := rfl
@[simp] theorem State.memRead_setDisp (s : State) (d : Display) (q : Nat) : (s.setDisp d).memRead q = s.memRead q := rfl
@[simp] theorem State.getKey_setDisp (s : State) (d : Display) (q : Fin 16) : (s.setDisp d).getKey q = s.getKey q := rfl

/-! ### `State.requestRedraw` -/

@[simp] theorem State.requestRedraw_mem (s : State) : s.requestRedraw.mem = s.mem := rfl
@[simp] theorem State.requestRedraw_V (s : State) : s.requestRedraw.V = s.V := rfl
@[simp] theorem State.requestRedraw_I (s : State) : s.requestRedraw.I = s.I := rfl
@[simp] theorem State.requestRedraw_pc (s : State) : s.requestRedraw.pc = s.pc := rfl
@[simp] theorem State.requestRedraw_Stack (s : State) : s.requestRedraw.Stack = s.Stack := rfl
@[simp] theorem State.requestRedraw_sp (s : State) : s.requestRedraw.sp = s.sp := rfl
@[simp] theorem State.requestRedraw_DT (s : State) : s.requestRedraw.DT = s.DT := rfl
@[simp] theorem State.requestRedraw_ST (s : State) : s.requestRedraw.ST = s.ST := rfl
@[simp] theorem State.requestRedraw_Disp (s : State) : s.requestRedraw.Disp = s.Disp := rfl
@[simp] theorem State.requestRedraw_Key (s : State) : s.requestRedraw.Key = s.Key := rfl
@[simp] theorem State.requestRedraw_opcode (s : State) : s.requestRedraw.opcode = s.opcode := rfl
@[simp] theorem State.requestRedraw_redraw (s : State) : s.requestRedraw.redraw = true := rfl
@[simp] theorem State.requestRedraw_beep (s : State) : s.requestRedraw.beep = s.beep := rfl
@[simp] theorem State.requestRedraw_unknown (s : State) : s.requestRedraw.unknown = s.unknown := rfl
@[simp] theorem State.requestRedraw_fault (s : State) : s.requestRedraw.fault = s.fault := rfl
@[simp] theorem State.requestRedraw_drawCount (s : State) : s.requestRedraw.drawCount = s.drawCount := rfl
@[simp] theorem State.requestRedraw_refusalMark (s : State) : s.requestRedraw.refusalMark = s.refusalMark := rfl

@[simp] theorem State.getV_requestRedraw (s : State) (r : Reg) : s.requestRedraw.getV r = s.getV r := rfl
@[simp] theorem State.memRead_requestRedraw (s : State) (q : Nat) : s.requestRedraw.memRead q = s.memRead q := rfl
@[simp] theorem State.getKey_requestRedraw (s : State) (q : Fin 16) : s.requestRedraw.getKey q = s.getKey q := rfl

/-! ### `State.requestBeep` -/

@[simp] theorem State.requestBeep_mem (s : State) : s.requestBeep.mem = s.mem := rfl
@[simp] theorem State.requestBeep_V (s : State) : s.requestBeep.V = s.V := rfl
@[simp] theorem State.requestBeep_I (s : State) : s.requestBeep.I = s.I := rfl
@[simp] theorem State.requestBeep_pc (s : State) : s.requestBeep.pc = s.pc := rfl
@[simp] theorem State.requestBeep_Stack (s : State) : s.requestBeep.Stack = s.Stack := rfl
@[simp] theorem State.requestBeep_sp (s : State) : s.requestBeep.sp = s.sp := rfl
@[simp] theorem State.requestBeep_DT (s : State) : s.requestBeep.DT = s.DT := rfl
@[simp] theorem State.requestBeep_ST (s : State) : s.requestBeep.ST = s.ST := rfl
@[simp] theorem State.requestBeep_Disp (s : State) : s.requestBeep.Disp = s.Disp := rfl
@[simp] theorem State.requestBeep_Key (s : State) : s.requestBeep.Key = s.Key := rfl
@[simp] theorem State.requestBeep_opcode (s : State) : s.requestBeep.opcode = s.opcode := rfl
@[simp] theorem State.requestBeep_redraw (s : State) : s.requestBeep.redraw = s.redraw := rfl
@[simp] theorem State.requestBeep_beep (s : State) : s.requestBeep.beep = true := rfl
@[simp] theorem State.requestBeep_unknown (s : State) : s.requestBeep.unknown = s.unknown := rfl
@[simp] theorem State.requestBeep_fault (s : State) : s.requestBeep.fault = s.fault := rfl
@[simp] theorem State.requestBeep_drawCount (s : State) : s.requestBeep.drawCount = s.drawCount := rfl
@[simp] theorem State.requestBeep_refusalMark (s : State) : s.requestBeep.refusalMark = s.refusalMark := rfl

@[simp] theorem State.getV_requestBeep (s : State) (r : Reg) : s.requestBeep.getV r = s.getV r := rfl
@[simp] theorem State.memRead_requestBeep (s : State) (q : Nat) : s.requestBeep.memRead q = s.memRead q := rfl
@[simp] theorem State.getKey_requestBeep (s : State) (q : Fin 16) : s.requestBeep.getKey q = s.getKey q := rfl

/-! ### `State.setOpcode` -/

@[simp] theorem State.setOpcode_mem (s : State) (w : Word) : (s.setOpcode w).mem = s.mem := rfl
@[simp] theorem State.setOpcode_V (s : State) (w : Word) : (s.setOpcode w).V = s.V := rfl
@[simp] theorem State.setOpcode_I (s : State) (w : Word) : (s.setOpcode w).I = s.I := rfl
@[simp] theorem State.setOpcode_pc (s : State) (w : Word) : (s.setOpcode w).pc = s.pc := rfl
@[simp] theorem State.setOpcode_Stack (s : State) (w : Word) : (s.setOpcode w).Stack = s.Stack := rfl
@[simp] theorem State.setOpcode_sp (s : State) (w : Word) : (s.setOpcode w).sp = s.sp := rfl
@[simp] theorem State.setOpcode_DT (s : State) (w : Word) : (s.setOpcode w).DT = s.DT := rfl
@[simp] theorem State.setOpcode_ST (s : State) (w : Word) : (s.setOpcode w).ST = s.ST := rfl
@[simp] theorem State.setOpcode_Disp (s : State) (w : Word) : (s.setOpcode w).Disp = s.Disp := rfl
@[simp] theorem State.setOpcode_Key (s : State) (w : Word) : (s.setOpcode w).Key = s.Key := rfl
@[simp] theorem State.setOpcode_opcode (s : State) (w : Word) : (s.setOpcode w).opcode = w := rfl
@[simp] theorem State.setOpcode_redraw (s : State) (w : Word) : (s.setOpcode w).redraw = s.redraw := rfl
@[simp] theorem State.setOpcode_beep (s : State) (w : Word) : (s.setOpcode w).beep = s.beep := rfl
@[simp] theorem State.setOpcode_unknown (s : State) (w : Word) : (s.setOpcode w).unknown = s.unknown := rfl
@[simp] theorem State.setOpcode_fault (s : State) (w : Word) : (s.setOpcode w).fault = s.fault := rfl
@[simp] theorem State.setOpcode_drawCount (s : State) (w : Word) : (s.setOpcode w).drawCount = s.drawCount := rfl
@[simp] theorem State.setOpcode_refusalMark (s : State) (w : Word) : (s.setOpcode w).refusalMark = s.refusalMark := rfl

@[simp] theorem State.getV_setOpcode (s : State) (w : Word) (r : Reg) : (s.setOpcode w).getV r = s.getV r := rfl
@[simp] theorem State.memRead_setOpcode (s : State) (w : Word) (q : Nat) : (s.setOpcode w).memRead q = s.memRead q := rfl
@[simp] theorem State.getKey_setOpcode (s : State) (w : Word) (q : Fin 16) : (s.setOpcode w).getKey q = s.getKey q := rfl

/-! ### `State.noteUnknown` -/

@[simp] theorem State.noteUnknown_mem (s : State) (w : Word) : (s.noteUnknown w).mem = s.mem := rfl
@[simp] theorem State.noteUnknown_V (s : State) (w : Word) : (s.noteUnknown w).V = s.V := rfl
@[simp] theorem State.noteUnknown_I (s : State) (w : Word) : (s.noteUnknown w).I = s.I := rfl
@[simp] theorem State.noteUnknown_pc (s : State) (w : Word) : (s.noteUnknown w).pc = s.pc := rfl
@[simp] theorem State.noteUnknown_Stack (s : State) (w : Word) : (s.noteUnknown w).Stack = s.Stack := rfl
@[simp] theorem State.noteUnknown_sp (s : State) (w : Word) : (s.noteUnknown w).sp = s.sp := rfl
@[simp] theorem State.noteUnknown_DT (s : State) (w : Word) : (s.noteUnknown w).DT = s.DT := rfl
@[simp] theorem State.noteUnknown_ST (s : State) (w : Word) : (s.noteUnknown w).ST = s.ST := rfl
@[simp] theorem State.noteUnknown_Disp (s : State) (w : Word) : (s.noteUnknown w).Disp = s.Disp := rfl
@[simp] theorem State.noteUnknown_Key (s : State) (w : Word) : (s.noteUnknown w).Key = s.Key := rfl
@[simp] theorem State.noteUnknown_opcode (s : State) (w : Word) : (s.noteUnknown w).opcode = s.opcode := rfl
@[simp] theorem State.noteUnknown_redraw (s : State) (w : Word) : (s.noteUnknown w).redraw = s.redraw := rfl
@[simp] theorem State.noteUnknown_beep (s : State) (w : Word) : (s.noteUnknown w).beep = s.beep := rfl
@[simp] theorem State.noteUnknown_unknown (s : State) (w : Word) : (s.noteUnknown w).unknown = some ⟨s.pc, w⟩ := rfl
@[simp] theorem State.noteUnknown_fault (s : State) (w : Word) : (s.noteUnknown w).fault = s.fault := rfl
@[simp] theorem State.noteUnknown_drawCount (s : State) (w : Word) : (s.noteUnknown w).drawCount = s.drawCount := rfl
@[simp] theorem State.noteUnknown_refusalMark (s : State) (w : Word) : (s.noteUnknown w).refusalMark = true := rfl

@[simp] theorem State.getV_noteUnknown (s : State) (w : Word) (r : Reg) : (s.noteUnknown w).getV r = s.getV r := rfl
@[simp] theorem State.memRead_noteUnknown (s : State) (w : Word) (q : Nat) : (s.noteUnknown w).memRead q = s.memRead q := rfl
@[simp] theorem State.getKey_noteUnknown (s : State) (w : Word) (q : Fin 16) : (s.noteUnknown w).getKey q = s.getKey q := rfl

/-! ### `State.spendDraw` -/

@[simp] theorem State.spendDraw_mem (s : State) : s.spendDraw.mem = s.mem := rfl
@[simp] theorem State.spendDraw_V (s : State) : s.spendDraw.V = s.V := rfl
@[simp] theorem State.spendDraw_I (s : State) : s.spendDraw.I = s.I := rfl
@[simp] theorem State.spendDraw_pc (s : State) : s.spendDraw.pc = s.pc := rfl
@[simp] theorem State.spendDraw_Stack (s : State) : s.spendDraw.Stack = s.Stack := rfl
@[simp] theorem State.spendDraw_sp (s : State) : s.spendDraw.sp = s.sp := rfl
@[simp] theorem State.spendDraw_DT (s : State) : s.spendDraw.DT = s.DT := rfl
@[simp] theorem State.spendDraw_ST (s : State) : s.spendDraw.ST = s.ST := rfl
@[simp] theorem State.spendDraw_Disp (s : State) : s.spendDraw.Disp = s.Disp := rfl
@[simp] theorem State.spendDraw_Key (s : State) : s.spendDraw.Key = s.Key := rfl
@[simp] theorem State.spendDraw_opcode (s : State) : s.spendDraw.opcode = s.opcode := rfl
@[simp] theorem State.spendDraw_redraw (s : State) : s.spendDraw.redraw = s.redraw := rfl
@[simp] theorem State.spendDraw_beep (s : State) : s.spendDraw.beep = s.beep := rfl
@[simp] theorem State.spendDraw_unknown (s : State) : s.spendDraw.unknown = s.unknown := rfl
@[simp] theorem State.spendDraw_fault (s : State) : s.spendDraw.fault = s.fault := rfl
@[simp] theorem State.spendDraw_drawCount (s : State) : s.spendDraw.drawCount = s.drawCount + 1 := rfl
@[simp] theorem State.spendDraw_refusalMark (s : State) : s.spendDraw.refusalMark = s.refusalMark := rfl

@[simp] theorem State.getV_spendDraw (s : State) (r : Reg) : s.spendDraw.getV r = s.getV r := rfl
@[simp] theorem State.memRead_spendDraw (s : State) (q : Nat) : s.spendDraw.memRead q = s.memRead q := rfl
@[simp] theorem State.getKey_spendDraw (s : State) (q : Fin 16) : s.spendDraw.getKey q = s.getKey q := rfl

/-! ### `State.push` -/

@[simp] theorem State.push_mem (s : State) (v : Word) (h : s.sp.val < 16) : (s.push v h).mem = s.mem := rfl
@[simp] theorem State.push_V (s : State) (v : Word) (h : s.sp.val < 16) : (s.push v h).V = s.V := rfl
@[simp] theorem State.push_I (s : State) (v : Word) (h : s.sp.val < 16) : (s.push v h).I = s.I := rfl
@[simp] theorem State.push_pc (s : State) (v : Word) (h : s.sp.val < 16) : (s.push v h).pc = s.pc := rfl
@[simp] theorem State.push_Stack (s : State) (v : Word) (h : s.sp.val < 16) : (s.push v h).Stack = s.Stack.set s.sp.val v := rfl
@[simp] theorem State.push_sp (s : State) (v : Word) (h : s.sp.val < 16) : (s.push v h).sp = ⟨s.sp.val + 1, by omega⟩ := rfl
@[simp] theorem State.push_DT (s : State) (v : Word) (h : s.sp.val < 16) : (s.push v h).DT = s.DT := rfl
@[simp] theorem State.push_ST (s : State) (v : Word) (h : s.sp.val < 16) : (s.push v h).ST = s.ST := rfl
@[simp] theorem State.push_Disp (s : State) (v : Word) (h : s.sp.val < 16) : (s.push v h).Disp = s.Disp := rfl
@[simp] theorem State.push_Key (s : State) (v : Word) (h : s.sp.val < 16) : (s.push v h).Key = s.Key := rfl
@[simp] theorem State.push_opcode (s : State) (v : Word) (h : s.sp.val < 16) : (s.push v h).opcode = s.opcode := rfl
@[simp] theorem State.push_redraw (s : State) (v : Word) (h : s.sp.val < 16) : (s.push v h).redraw = s.redraw := rfl
@[simp] theorem State.push_beep (s : State) (v : Word) (h : s.sp.val < 16) : (s.push v h).beep = s.beep := rfl
@[simp] theorem State.push_unknown (s : State) (v : Word) (h : s.sp.val < 16) : (s.push v h).unknown = s.unknown := rfl
@[simp] theorem State.push_fault (s : State) (v : Word) (h : s.sp.val < 16) : (s.push v h).fault = s.fault := rfl
@[simp] theorem State.push_drawCount (s : State) (v : Word) (h : s.sp.val < 16) : (s.push v h).drawCount = s.drawCount := rfl
@[simp] theorem State.push_refusalMark (s : State) (v : Word) (h : s.sp.val < 16) : (s.push v h).refusalMark = s.refusalMark := rfl

@[simp] theorem State.getV_push (s : State) (v : Word) (h : s.sp.val < 16) (r : Reg) : (s.push v h).getV r = s.getV r := rfl
@[simp] theorem State.memRead_push (s : State) (v : Word) (h : s.sp.val < 16) (q : Nat) : (s.push v h).memRead q = s.memRead q := rfl
@[simp] theorem State.getKey_push (s : State) (v : Word) (h : s.sp.val < 16) (q : Fin 16) : (s.push v h).getKey q = s.getKey q := rfl

/-! ### `State.pop` -/

@[simp] theorem State.pop_mem (s : State) : s.pop.mem = s.mem := rfl
@[simp] theorem State.pop_V (s : State) : s.pop.V = s.V := rfl
@[simp] theorem State.pop_I (s : State) : s.pop.I = s.I := rfl
@[simp] theorem State.pop_pc (s : State) : s.pop.pc = s.pc := rfl
@[simp] theorem State.pop_Stack (s : State) : s.pop.Stack = s.Stack := rfl
@[simp] theorem State.pop_sp (s : State) : s.pop.sp = ⟨s.sp.val - 1, by omega⟩ := rfl
@[simp] theorem State.pop_DT (s : State) : s.pop.DT = s.DT := rfl
@[simp] theorem State.pop_ST (s : State) : s.pop.ST = s.ST := rfl
@[simp] theorem State.pop_Disp (s : State) : s.pop.Disp = s.Disp := rfl
@[simp] theorem State.pop_Key (s : State) : s.pop.Key = s.Key := rfl
@[simp] theorem State.pop_opcode (s : State) : s.pop.opcode = s.opcode := rfl
@[simp] theorem State.pop_redraw (s : State) : s.pop.redraw = s.redraw := rfl
@[simp] theorem State.pop_beep (s : State) : s.pop.beep = s.beep := rfl
@[simp] theorem State.pop_unknown (s : State) : s.pop.unknown = s.unknown := rfl
@[simp] theorem State.pop_fault (s : State) : s.pop.fault = s.fault := rfl
@[simp] theorem State.pop_drawCount (s : State) : s.pop.drawCount = s.drawCount := rfl
@[simp] theorem State.pop_refusalMark (s : State) : s.pop.refusalMark = s.refusalMark := rfl

@[simp] theorem State.getV_pop (s : State) (r : Reg) : s.pop.getV r = s.getV r := rfl
@[simp] theorem State.memRead_pop (s : State) (q : Nat) : s.pop.memRead q = s.memRead q := rfl
@[simp] theorem State.getKey_pop (s : State) (q : Fin 16) : s.pop.getKey q = s.getKey q := rfl

/-! ### `State.raise` -/

@[simp] theorem State.raise_mem (s : State) (k : FaultKind) (w : Option Word) (n : Nat) : (s.raise k w n).mem = s.mem := rfl
@[simp] theorem State.raise_V (s : State) (k : FaultKind) (w : Option Word) (n : Nat) : (s.raise k w n).V = s.V := rfl
@[simp] theorem State.raise_I (s : State) (k : FaultKind) (w : Option Word) (n : Nat) : (s.raise k w n).I = s.I := rfl
@[simp] theorem State.raise_pc (s : State) (k : FaultKind) (w : Option Word) (n : Nat) : (s.raise k w n).pc = s.pc := rfl
@[simp] theorem State.raise_Stack (s : State) (k : FaultKind) (w : Option Word) (n : Nat) : (s.raise k w n).Stack = s.Stack := rfl
@[simp] theorem State.raise_sp (s : State) (k : FaultKind) (w : Option Word) (n : Nat) : (s.raise k w n).sp = s.sp := rfl
@[simp] theorem State.raise_DT (s : State) (k : FaultKind) (w : Option Word) (n : Nat) : (s.raise k w n).DT = s.DT := rfl
@[simp] theorem State.raise_ST (s : State) (k : FaultKind) (w : Option Word) (n : Nat) : (s.raise k w n).ST = s.ST := rfl
@[simp] theorem State.raise_Disp (s : State) (k : FaultKind) (w : Option Word) (n : Nat) : (s.raise k w n).Disp = s.Disp := rfl
@[simp] theorem State.raise_Key (s : State) (k : FaultKind) (w : Option Word) (n : Nat) : (s.raise k w n).Key = s.Key := rfl
@[simp] theorem State.raise_opcode (s : State) (k : FaultKind) (w : Option Word) (n : Nat) : (s.raise k w n).opcode = s.opcode := rfl
@[simp] theorem State.raise_redraw (s : State) (k : FaultKind) (w : Option Word) (n : Nat) : (s.raise k w n).redraw = s.redraw := rfl
@[simp] theorem State.raise_beep (s : State) (k : FaultKind) (w : Option Word) (n : Nat) : (s.raise k w n).beep = s.beep := rfl
@[simp] theorem State.raise_unknown (s : State) (k : FaultKind) (w : Option Word) (n : Nat) : (s.raise k w n).unknown = s.unknown := rfl
@[simp] theorem State.raise_fault (s : State) (k : FaultKind) (w : Option Word) (n : Nat) : (s.raise k w n).fault = some ⟨k, s.pc, w, n⟩ := rfl
@[simp] theorem State.raise_drawCount (s : State) (k : FaultKind) (w : Option Word) (n : Nat) : (s.raise k w n).drawCount = s.drawCount := rfl
@[simp] theorem State.raise_refusalMark (s : State) (k : FaultKind) (w : Option Word) (n : Nat) : (s.raise k w n).refusalMark = s.refusalMark := rfl

@[simp] theorem State.getV_raise (s : State) (k : FaultKind) (w : Option Word) (n : Nat) (r : Reg) : (s.raise k w n).getV r = s.getV r := rfl
@[simp] theorem State.memRead_raise (s : State) (k : FaultKind) (w : Option Word) (n : Nat) (q : Nat) : (s.raise k w n).memRead q = s.memRead q := rfl
@[simp] theorem State.getKey_raise (s : State) (k : FaultKind) (w : Option Word) (n : Nat) (q : Fin 16) : (s.raise k w n).getKey q = s.getKey q := rfl

/-! ### `State.memWriteBlock` -/

@[simp] theorem State.memWriteBlock_mem (s : State) (a : Nat) (bs : List Byte) : (s.memWriteBlock a bs).mem = s.mem.writeBlock a bs := rfl
@[simp] theorem State.memWriteBlock_V (s : State) (a : Nat) (bs : List Byte) : (s.memWriteBlock a bs).V = s.V := rfl
@[simp] theorem State.memWriteBlock_I (s : State) (a : Nat) (bs : List Byte) : (s.memWriteBlock a bs).I = s.I := rfl
@[simp] theorem State.memWriteBlock_pc (s : State) (a : Nat) (bs : List Byte) : (s.memWriteBlock a bs).pc = s.pc := rfl
@[simp] theorem State.memWriteBlock_Stack (s : State) (a : Nat) (bs : List Byte) : (s.memWriteBlock a bs).Stack = s.Stack := rfl
@[simp] theorem State.memWriteBlock_sp (s : State) (a : Nat) (bs : List Byte) : (s.memWriteBlock a bs).sp = s.sp := rfl
@[simp] theorem State.memWriteBlock_DT (s : State) (a : Nat) (bs : List Byte) : (s.memWriteBlock a bs).DT = s.DT := rfl
@[simp] theorem State.memWriteBlock_ST (s : State) (a : Nat) (bs : List Byte) : (s.memWriteBlock a bs).ST = s.ST := rfl
@[simp] theorem State.memWriteBlock_Disp (s : State) (a : Nat) (bs : List Byte) : (s.memWriteBlock a bs).Disp = s.Disp := rfl
@[simp] theorem State.memWriteBlock_Key (s : State) (a : Nat) (bs : List Byte) : (s.memWriteBlock a bs).Key = s.Key := rfl
@[simp] theorem State.memWriteBlock_opcode (s : State) (a : Nat) (bs : List Byte) : (s.memWriteBlock a bs).opcode = s.opcode := rfl
@[simp] theorem State.memWriteBlock_redraw (s : State) (a : Nat) (bs : List Byte) : (s.memWriteBlock a bs).redraw = s.redraw := rfl
@[simp] theorem State.memWriteBlock_beep (s : State) (a : Nat) (bs : List Byte) : (s.memWriteBlock a bs).beep = s.beep := rfl
@[simp] theorem State.memWriteBlock_unknown (s : State) (a : Nat) (bs : List Byte) : (s.memWriteBlock a bs).unknown = s.unknown := rfl
@[simp] theorem State.memWriteBlock_fault (s : State) (a : Nat) (bs : List Byte) : (s.memWriteBlock a bs).fault = s.fault := rfl
@[simp] theorem State.memWriteBlock_drawCount (s : State) (a : Nat) (bs : List Byte) : (s.memWriteBlock a bs).drawCount = s.drawCount := rfl
@[simp] theorem State.memWriteBlock_refusalMark (s : State) (a : Nat) (bs : List Byte) : (s.memWriteBlock a bs).refusalMark = s.refusalMark := rfl

@[simp] theorem State.getV_memWriteBlock (s : State) (a : Nat) (bs : List Byte) (r : Reg) : (s.memWriteBlock a bs).getV r = s.getV r := rfl
@[simp] theorem State.getKey_memWriteBlock (s : State) (a : Nat) (bs : List Byte) (q : Fin 16) : (s.memWriteBlock a bs).getKey q = s.getKey q := rfl

/-! ### Registers -/

/-- A register after a write to one. -/
@[simp] theorem State.getV_setV (s : State) (x : Reg) (b : Byte) (r : Reg) :
    (s.setV x b).getV r = if r = x then b else s.getV r := by
  simp only [State.getV, State.setV_V, Vector.getElem_set, Fin.ext_iff, eq_comm]

/-- A register after a block load. -/
@[simp] theorem State.getV_setBlockV (s : State) (x : Reg) (f : Nat → Byte) (r : Reg) :
    (s.setBlockV x f).getV r = if r.val ≤ x.val then f r.val else s.getV r := by
  simp [State.getV]

/-- A block of registers has one byte a register. -/
@[simp] theorem State.length_blockV (s : State) (x : Reg) : (s.blockV x).length = x.val + 1 := by
  simp [State.blockV]

/-- Byte `k` of a block of registers is register `k`. -/
@[simp] theorem State.getElem_blockV (s : State) (x : Reg) (k : Nat) (h : k < (s.blockV x).length) :
    (s.blockV x)[k] = s.getV ⟨k, by have := s.length_blockV x; omega⟩ := by
  simp [State.blockV, State.getV]

/-- A read of memory after a block of writes is a read of the written memory. -/
theorem State.memRead_memWriteBlock (s : State) (a : Nat) (bs : List Byte) (q : Nat) :
    (s.memWriteBlock a bs).memRead q = (s.mem.writeBlock a bs).read q := rfl

end Sys2Proof.Machine
end

