-- ==== Sys2Proof/Laws/Memory.lean ====
section
/-! SUPPORT. The laws of memory: a read after a write, at the same address and at another; the canonical form, which every
operation keeps and under which equal reads mean equal data; and what a checked block access is. -/

namespace Sys2Proof.Machine

theorem Memory.read_erase_same (m : Memory) (a : Nat) : (m.erase a).read a = initialByte a := by
  induction m with
  | nil => rfl
  | cons c m ih =>
    by_cases h : c.1 = a
    · simpa [Memory.erase, h] using ih
    · simpa [Memory.erase, h, Memory.read] using ih

theorem Memory.read_erase_other (m : Memory) (a q : Nat) (h : q ≠ a) : (m.erase a).read q = m.read q := by
  induction m with
  | nil => rfl
  | cons c m ih =>
    by_cases hc : c.1 = a
    · have hq : a ≠ q := Ne.symm h
      simpa [Memory.erase, hc, Memory.read, hq] using ih
    · by_cases hq : c.1 = q
      · simp [Memory.erase, Memory.read, hq, h]
      · simpa [Memory.erase, hc, Memory.read, hq] using ih

theorem Memory.read_insert_other (m : Memory) (a q : Nat) (b : Byte) (h : q ≠ a) :
    (Memory.insert a b m).read q = m.read q := by
  induction m with
  | nil => simp [Memory.insert, Memory.read, Ne.symm h]
  | cons c m ih =>
    by_cases hc : a < c.1
    · simp [Memory.insert, hc, Memory.read, Ne.symm h]
    · simp [Memory.insert, hc, Memory.read, ih]

theorem Memory.read_insert_same (m : Memory) (a : Nat) (b : Byte) (h : ∀ c ∈ m, c.1 ≠ a) :
    (Memory.insert a b m).read a = b := by
  induction m with
  | nil => simp [Memory.insert, Memory.read]
  | cons c m ih =>
    by_cases hc : a < c.1
    · simp [Memory.insert, hc, Memory.read]
    · have h1 : c.1 ≠ a := h c (by simp)
      have h2 := ih fun d hd => h d (by simp [hd])
      simp [Memory.insert, hc, Memory.read, h1, h2]

theorem Memory.ne_of_mem_erase (m : Memory) (a : Nat) : ∀ c ∈ m.erase a, c.1 ≠ a := by
  intro c hc
  simpa using (List.mem_filter.mp hc).2

/-- A read of the byte just written. -/
theorem Memory.read_write_same (m : Memory) (a : Nat) (b : Byte) (h : a < 4096) : (m.write a b).read a = b := by
  unfold Memory.write
  rw [if_pos h]
  split
  · next e => rw [Memory.read_erase_same, e]
  · exact Memory.read_insert_same _ _ _ (Memory.ne_of_mem_erase m a)

/-- A write leaves every other address alone. -/
theorem Memory.read_write_other (m : Memory) (a q : Nat) (b : Byte) (h : q ≠ a) :
    (m.write a b).read q = m.read q := by
  unfold Memory.write
  split
  · split
    · exact Memory.read_erase_other m a q h
    · rw [Memory.read_insert_other _ _ _ _ h, Memory.read_erase_other m a q h]
  · rfl

theorem Memory.read_write (m : Memory) (a q : Nat) (b : Byte) (h : a < 4096) :
    (m.write a b).read q = if q = a then b else m.read q := by
  split
  · next e => rw [e, Memory.read_write_same m a b h]
  · next e => exact Memory.read_write_other m a q b e

/-- What a block of writes does to a read, everywhere. -/
theorem Memory.read_writeBlock (m : Memory) (a : Nat) (bs : List Byte) (h : a + bs.length ≤ 4096) (q : Nat) :
    (m.writeBlock a bs).read q = if a ≤ q then (bs[q - a]?).getD (m.read q) else m.read q := by
  induction bs generalizing m a with
  | nil => simp [Memory.writeBlock]
  | cons b bs ih =>
    simp only [List.length_cons] at h
    rw [Memory.writeBlock, ih (m.write a b) (a + 1) (by omega), Memory.read_write m a q b (by omega)]
    by_cases h1 : q = a
    · subst h1; simp
    · by_cases h2 : a ≤ q
      · have h3 : a + 1 ≤ q := by omega
        have h4 : q - a = (q - (a + 1)) + 1 := by omega
        simp [h1, h2, h3, h4]
      · have h3 : ¬ a + 1 ≤ q := by omega
        simp [h1, h2, h3]

/-- An address outside a block of writes reads as before, whatever the block. -/
theorem Memory.read_writeBlock_other (m : Memory) (a : Nat) (bs : List Byte) (q : Nat)
    (h : ¬ (a ≤ q ∧ q < a + bs.length)) : (m.writeBlock a bs).read q = m.read q := by
  induction bs generalizing m a with
  | nil => rfl
  | cons b bs ih =>
    simp only [List.length_cons] at h
    rw [Memory.writeBlock, ih (m.write a b) (a + 1) (by omega), Memory.read_write_other _ _ _ _ (by omega)]

/-! ## The canonical form -/

theorem Memory.wf_nil : Memory.wf [] := by simp [Memory.wf]

theorem Memory.wf_erase {m : Memory} (h : m.wf) (a : Nat) : (m.erase a).wf :=
  ⟨h.1.filter _, fun c hc => h.2 c (List.mem_filter.mp hc).1⟩

theorem Memory.mem_insert {a : Nat} {b : Byte} {m : Memory} {c : Host.Cell} (h : c ∈ Memory.insert a b m) :
    c = (a, b) ∨ c ∈ m := by
  induction m with
  | nil => simpa [Memory.insert] using h
  | cons d m ih =>
    unfold Memory.insert at h
    split at h
    · simpa using h
    · rcases List.mem_cons.mp h with h | h
      · exact .inr (by simp [h])
      · exact (ih h).imp_right fun h => by simp [h]

theorem Memory.wf_insert {m : Memory} (h : m.wf) (a : Nat) (b : Byte) (ha : a < 4096) (hb : b ≠ initialByte a)
    (hn : ∀ c ∈ m, c.1 ≠ a) : (Memory.insert a b m).wf := by
  refine ⟨?_, fun c hc => ?_⟩
  · have hp := h.1
    clear h
    induction m with
    | nil => simp [Memory.insert]
    | cons d m ih =>
      have hd := List.pairwise_cons.mp hp
      have hne : d.1 ≠ a := hn d (by simp)
      unfold Memory.insert
      split
      · next hlt =>
        refine List.pairwise_cons.mpr ⟨fun c hc => ?_, hp⟩
        rcases List.mem_cons.mp hc with rfl | hc
        · exact hlt
        · exact Nat.lt_trans hlt (hd.1 c hc)
      · next hge =>
        refine List.pairwise_cons.mpr ⟨fun c hc => ?_, ih (fun c hc => hn c (by simp [hc])) hd.2⟩
        rcases Memory.mem_insert hc with rfl | hc
        · show d.1 < a; omega
        · exact hd.1 c hc
  · rcases Memory.mem_insert hc with rfl | hc
    · exact ⟨ha, hb⟩
    · exact h.2 c hc

/-- A write keeps the canonical form. -/
theorem Memory.wf_write {m : Memory} (h : m.wf) (a : Nat) (b : Byte) : (m.write a b).wf := by
  unfold Memory.write
  split
  · next ha =>
    split
    · exact Memory.wf_erase h a
    · next hb => exact Memory.wf_insert (Memory.wf_erase h a) a b ha hb (Memory.ne_of_mem_erase m a)
  · exact h

/-- A block of writes keeps the canonical form. -/
theorem Memory.wf_writeBlock {m : Memory} (h : m.wf) (a : Nat) (bs : List Byte) : (m.writeBlock a bs).wf := by
  induction bs generalizing m a with
  | nil => exact h
  | cons b bs ih => exact ih (Memory.wf_write h a b) (a + 1)

/-- An address below every listed one reads as its reset contents. -/
theorem Memory.read_of_lt {m : Memory} {a : Nat} (h : ∀ c ∈ m, a < c.1) : m.read a = initialByte a := by
  induction m with
  | nil => rfl
  | cons c m ih =>
    have h1 := h c (by simp)
    rw [Memory.read, if_neg (by omega), ih fun d hd => h d (by simp [hd])]

/-- In canonical form, memories that read the same are the same data. -/
theorem Memory.ext {m n : Memory} (hm : m.wf) (hn : n.wf) (h : ∀ a, m.read a = n.read a) : m = n := by
  induction m generalizing n with
  | nil =>
    cases n with
    | nil => rfl
    | cons d n =>
      have := h d.1
      simp only [Memory.read, if_true] at this
      exact absurd this.symm (hn.2 d (by simp)).2
  | cons c m ih =>
    obtain ⟨hc, hm1⟩ := List.pairwise_cons.mp hm.1
    have rc : Memory.read (c :: m) c.1 = c.2 := by simp [Memory.read]
    cases n with
    | nil =>
      have := h c.1
      rw [rc] at this
      exact absurd this (hm.2 c (by simp)).2
    | cons d n =>
      obtain ⟨hd, hn1⟩ := List.pairwise_cons.mp hn.1
      have rd : Memory.read (d :: n) d.1 = d.2 := by simp [Memory.read]
      rcases Nat.lt_trichotomy c.1 d.1 with hlt | heq | hgt
      · have e : Memory.read (d :: n) c.1 = initialByte c.1 := Memory.read_of_lt fun f hf => by
          rcases List.mem_cons.mp hf with rfl | hf
          · exact hlt
          · exact Nat.lt_trans hlt (hd f hf)
        exact absurd (rc ▸ (h c.1).trans e) (hm.2 c (by simp)).2
      · have e : c.2 = d.2 := by rw [← rc, h c.1, heq, rd]
        have ecd : c = d := Prod.ext heq e
        subst ecd
        congr 1
        refine ih ⟨hm1, fun f hf => hm.2 f (by simp [hf])⟩ ⟨hn1, fun f hf => hn.2 f (by simp [hf])⟩ fun a => ?_
        by_cases ha : c.1 = a
        · subst ha
          rw [Memory.read_of_lt hc, Memory.read_of_lt hd]
        · have := h a
          simpa [Memory.read, ha] using this
      · have e : Memory.read (c :: m) d.1 = initialByte d.1 := Memory.read_of_lt fun f hf => by
          rcases List.mem_cons.mp hf with rfl | hf
          · exact hgt
          · exact Nat.lt_trans hgt (hc f hf)
        exact absurd (rd ▸ (h d.1).symm.trans e) (hn.2 d (by simp)).2

/-- Memory after reset has the canonical form. -/
theorem State.reset_mem_wf : State.reset.mem.wf := Memory.wf_nil

/-! ## Checked accesses (R53) -/

/-- A block from `base` is inside memory exactly when no address of it is reported. -/
theorem firstOutside_eq_none {base len : Nat} : firstOutside base len = none ↔ base + len ≤ 4096 := by
  unfold firstOutside; split <;> simp_all

/-- The reported address is the lowest one of the block above 4095. -/
theorem firstOutside_eq_some {base len a : Nat} (h : firstOutside base len = some a) :
    4096 < base + len ∧ a = max base 4096 := by
  unfold firstOutside at h
  split at h
  · simp at h
  · simp only [Option.some.injEq] at h; split at h <;> omega

end Sys2Proof.Machine
end

