-- ==== Sys2Proof/Laws/Operands.lean ====
section
/-! SUPPORT. One lemma per operand form and flag operation that says what it answers: the keypad operand, the highest
pressed key, sprite pixels and their check, the effect of XOR-drawing, and the order of result and flag. -/

namespace Sys2Proof.Machine

/-! ## Keypad -/

theorem State.keyOf_eq_none {s : State} {x : Reg} : s.keyOf x = none ↔ 15 < (s.getV x).toNat := by
  unfold State.keyOf; split <;> simp <;> omega

theorem State.keyOf_eq_some {s : State} {x : Reg} {k : Fin 16} :
    s.keyOf x = some k ↔ (s.getV x).toNat = k.val := by
  unfold State.keyOf
  split
  · simp [Fin.ext_iff]
  · have := k.isLt; simp; omega

theorem State.highestKey_eq_none {s : State} : s.highestKey = none ↔ ∀ k, s.getKey k = false := by
  simp [State.highestKey, List.find?_eq_none]

/-- The key FX0A finds is pressed, and no higher one is (R163). -/
theorem State.highestKey_eq_some {s : State} {k : Fin 16} (h : s.highestKey = some k) :
    s.getKey k = true ∧ ∀ j, k < j → s.getKey j = false := by
  obtain ⟨hk, as, bs, he, hn⟩ := List.find?_eq_some_iff_append.mp h
  refine ⟨hk, fun j hj => ?_⟩
  have hs : (List.finRange 16).reverse.Pairwise (fun a b => b < a) := by decide
  have hm : j ∈ as ++ k :: bs := he ▸ by simp
  rw [he, List.pairwise_append, List.pairwise_cons] at hs
  rcases List.mem_append.mp hm with hm | hm
  · simpa using hn j hm
  · rcases List.mem_cons.mp hm with rfl | hm
    · exact absurd hj (Fin.lt_irrefl _)
    · exact absurd hj (Fin.not_lt.mpr (Fin.le_of_lt (hs.2.1.1 j hm)))

/-! ## Sprites -/

theorem mem_setColumns {b : Byte} {c : Nat} : c ∈ setColumns b ↔ c < 8 ∧ spriteBit b c = true := by
  simp [setColumns]

/-- A pixel is touched exactly when some set sprite bit lands on it (R171, R172). -/
theorem State.mem_spritePixels {s : State} {x0 y0 n p : Nat} :
    p ∈ s.spritePixels x0 y0 n ↔
      ∃ row < n, ∃ col < 8, spriteBit (s.memRead (s.atI row)) col = true ∧ pixelIndex x0 y0 row col = p := by
  simp [State.spritePixels, State.rowPixels, mem_setColumns, and_assoc]

/-- Within one draw no two set bits map to the same pixel (R171). -/
theorem State.spritePixels_nodup (s : State) (x0 y0 n : Nat) : (s.spritePixels x0 y0 n).Nodup := by
  rw [State.spritePixels, List.nodup_flatMap]
  refine ⟨fun row _ => ?_, ?_⟩
  · refine List.Nodup.map ?_ (List.nodup_range.filter _)
    intro a b h
    simp only [pixelIndex] at h
    omega
  · refine List.Pairwise.imp (R := fun a b => a < b) (fun {a b} hab => ?_) List.pairwise_lt_range
    simp only [Function.onFun, List.disjoint_left, State.rowPixels, List.mem_map, mem_setColumns, pixelIndex]
    rintro p ⟨c, ⟨hc, -⟩, rfl⟩ ⟨d, ⟨hd, -⟩, h⟩
    omega

/-- The check of a row passes when its byte is in memory and its set bits are on the display (R171). -/
theorem State.rowFault_eq_none {s : State} {x0 y0 row : Nat} :
    s.rowFault x0 y0 row = none ↔ s.atI row ≤ 4095 ∧ ∀ p ∈ s.rowPixels x0 y0 row, p ≤ 2047 := by
  unfold State.rowFault
  split
  · simp; omega
  · have : s.atI row ≤ 4095 := by omega
    simp only [Option.map_eq_none_iff, List.find?_eq_none, this, true_and]
    simp only [decide_eq_true_eq]
    exact forall₂_congr fun p _ => by omega

/-- The check pass passes when every row's byte is in memory and every touched pixel is on the display (R171). -/
theorem State.spriteFault_eq_none {s : State} {x0 y0 n : Nat} :
    s.spriteFault x0 y0 n = none ↔
      (∀ row < n, s.atI row ≤ 4095) ∧ ∀ p ∈ s.spritePixels x0 y0 n, p ≤ 2047 := by
  simp only [State.spriteFault, List.findSome?_eq_none_iff, List.mem_range, State.rowFault_eq_none,
    State.spritePixels, List.mem_flatMap]
  constructor
  · exact fun h => ⟨fun r hr => (h r hr).1, fun p ⟨r, hr, hp⟩ => (h r hr).2 p hp⟩
  · exact fun h r hr => ⟨h.1 r hr, fun p hp => h.2 p ⟨r, hr, hp⟩⟩

/-- What a failing row reports (R182, R184). -/
theorem State.rowFault_eq_some {s : State} {x0 y0 row : Nat} {k : FaultKind} {a : Nat}
    (h : s.rowFault x0 y0 row = some (k, a)) :
    (k = .readBounds ∧ a = s.atI row ∧ 4096 ≤ a) ∨
    (k = .displayBounds ∧ s.atI row ≤ 4095 ∧ a ∈ s.rowPixels x0 y0 row ∧ 2048 ≤ a) := by
  unfold State.rowFault at h
  split at h
  · simp only [Option.some.injEq, Prod.mk.injEq] at h
    obtain ⟨rfl, rfl⟩ := h
    exact .inl ⟨rfl, rfl, ‹_›⟩
  · simp only [Option.map_eq_some_iff, Prod.mk.injEq] at h
    obtain ⟨p, hp, rfl, rfl⟩ := h
    exact .inr ⟨rfl, by omega, List.mem_of_find?_eq_some hp, by simpa using List.find?_some hp⟩

/-- What a failing check pass reports: a row address or a touched pixel, out of range (R182). -/
theorem State.spriteFault_eq_some {s : State} {x0 y0 n : Nat} {k : FaultKind} {a : Nat}
    (h : s.spriteFault x0 y0 n = some (k, a)) :
    ∃ row < n, (k = .readBounds ∧ a = s.atI row ∧ 4096 ≤ a) ∨
      (k = .displayBounds ∧ s.atI row ≤ 4095 ∧ a ∈ s.rowPixels x0 y0 row ∧ 2048 ≤ a) := by
  obtain ⟨row, hr, h⟩ := List.exists_of_findSome?_eq_some h
  exact ⟨row, List.mem_range.mp hr, State.rowFault_eq_some h⟩

/-- The normative coordinate is the register's value, read first (R171, D8). -/
@[simp] theorem State.coordinate_normative (s : State) (x : Reg) :
    s.coordinate Variant.normative x = (s.getV x).toNat := by
  simp [State.coordinate, Variant.normative]

/-! ## The display -/

/-- A flip changes the one pixel (R171). -/
theorem pixel_flipPixel (d : Display) (p q : Nat) (h : p ≤ 2047) :
    pixel (flipPixel d p) q = if q = p then !pixel d p else pixel d q := by
  have hp : p < 2048 := by omega
  by_cases hq : q < 2048
  · unfold flipPixel
    rw [dif_pos hp]
    conv_lhs => unfold pixel
    rw [dif_pos hq]
    by_cases hr : p / 64 = q / 64
    · by_cases hc : p % 64 = q % 64
      · have e : q = p := by omega
        subst e; simp [pixel, hq]
      · have e : q ≠ p := fun e => hc (by rw [e])
        simp only [Vector.getElem_set, hr, if_true, hc, if_false, e]
        simp [pixel, hq]
    · have e : q ≠ p := fun e => hr (by rw [e])
      simp only [Vector.getElem_set, hr, if_false, e]
      simp [pixel, hq]
  · have e : q ≠ p := by omega
    simp [pixel, hq, e]

@[simp] theorem pixel_clear (p : Nat) : pixel Display.clear p = false := by
  simp [pixel, Display.clear]

/-- Equal pixels mean equal displays. -/
theorem Display.ext {d e : Display} (h : ∀ p ≤ 2047, pixel d p = pixel e p) : d = e := by
  refine Vector.ext fun r hr => Vector.ext fun c hc => ?_
  have hp : 64 * r + c < 2048 := by omega
  have h1 : (64 * r + c) / 64 = r := by omega
  have h2 : (64 * r + c) % 64 = c := by omega
  have := h (64 * r + c) (by omega)
  simpa [pixel, hp, h1, h2] using this

/-- The effect pass: every touched pixel is inverted, every other kept; the flag says whether a touched pixel was on
before (R171). -/
theorem xorPixels_spec (ps : List Nat) (d : Display) (c : Bool) (hn : ps.Nodup) (hb : ∀ p ∈ ps, p ≤ 2047) :
    (∀ q, pixel (xorPixels ps d c).1 q = (pixel d q ^^ decide (q ∈ ps))) ∧
    (xorPixels ps d c).2 = (c || ps.any (pixel d)) := by
  induction ps generalizing d c with
  | nil => simp [xorPixels]
  | cons p ps ih =>
    obtain ⟨hp, hn⟩ := List.nodup_cons.mp hn
    obtain ⟨i1, i2⟩ := ih (flipPixel d p) (c || pixel d p) hn fun q hq => hb q (by simp [hq])
    have hp' : p ≤ 2047 := hb p (by simp)
    refine ⟨fun q => ?_, ?_⟩
    · rw [xorPixels, i1, pixel_flipPixel d p q hp']
      by_cases h : q = p
      · subst h; simp [hp]
      · simp [h]
    · rw [xorPixels, i2]
      have e : ∀ q ∈ ps, pixel (flipPixel d p) q = pixel d q := fun q hq => by
        rw [pixel_flipPixel d p q hp', if_neg (fun h : q = p => hp (h ▸ hq))]
      have : ps.any (pixel (flipPixel d p)) = ps.any (pixel d) := by
        rw [Bool.eq_iff_iff, List.any_eq_true, List.any_eq_true]
        exact exists_congr fun q => and_congr_right fun hq => by rw [e q hq]
      simp [this, Bool.or_assoc]

/-! ## Results and flags -/

/-- Normatively the result is written first and the flag last (R95). -/
@[simp] theorem setResultAndFlag_normative (s : State) (x : Reg) (b : Byte) (f : Bool) :
    s.setResultAndFlag Variant.normative x b f = (s.setV x b).setV VF (flagByte f) := rfl

@[simp] theorem setLogicResult_normative (s : State) (x : Reg) (b : Byte) :
    s.setLogicResult Variant.normative x b = s.setV x b := by
  simp [State.setLogicResult, Variant.normative]

@[simp] theorem reducedIndex_normative (n : Nat) : reducedIndex Variant.normative n = n % 0xFFF := by
  simp [reducedIndex, Variant.normative]

end Sys2Proof.Machine
end

