-- ==== Sys2Proof/Laws/Cycle.lean ====
section
/-! SUPPORT. What the parts of a cycle answer: the fetch, the tick field by field, the end of a cycle. -/

namespace Sys2Proof.Machine

/-! ## Fetch -/

theorem fetch_eq_some {s : State} {w : Word} : fetch s = some w ↔ s.pc.toNat ≤ 4094 ∧ s.wordAtPc = w := by
  unfold fetch firstOutside
  by_cases h : s.pc.toNat + 2 ≤ 4096
  · have : s.pc.toNat ≤ 4094 := by omega
    simp [h, this]
  · have : ¬ s.pc.toNat ≤ 4094 := by omega
    simp [h, this]

theorem fetch_eq_none {s : State} : fetch s = none ↔ 4094 < s.pc.toNat := by
  unfold fetch firstOutside
  by_cases h : s.pc.toNat + 2 ≤ 4096
  · have : ¬ 4094 < s.pc.toNat := by omega
    simp [h, this]
  · have : 4094 < s.pc.toNat := by omega
    simp [h, this]

/-- The record of a fetch fault (R92). -/
theorem fetchFault_eq {s : State} (h : 4094 < s.pc.toNat) :
    fetchFault s = s.raise .fetchBounds none (if 4096 ≤ s.pc.toNat then s.pc.toNat else 4096) := by
  have : ¬ s.pc.toNat + 2 ≤ 4096 := by omega
  simp [fetchFault, firstOutside, this]

/-- The value of a word composed of two bytes, high byte first (R51). -/
@[simp] theorem toNat_composeWord (h l : Byte) : (composeWord h l).toNat = h.toNat * 256 + l.toNat := by
  have := h.isLt; have := l.isLt
  simp only [composeWord, u16, BitVec.toNat_ofNat]; omega

/-- A word is composed of its two bytes (R51). -/
@[simp] theorem composeWord_bytes (w : Word) : composeWord (highByte w) (lowByte w) = w := by
  have := w.isLt
  apply BitVec.eq_of_toNat_eq
  simp only [toNat_composeWord, highByte, lowByte, u8, BitVec.toNat_ofNat]; omega

/-! ## The tick (R96) -/

@[simp] theorem State.tick_mem (s : State) : s.tick.mem = s.mem := by
  unfold State.tick State.tickSound State.tickDelay; split_ifs <;> rfl

@[simp] theorem State.tick_V (s : State) : s.tick.V = s.V := by
  unfold State.tick State.tickSound State.tickDelay; split_ifs <;> rfl

@[simp] theorem State.tick_I (s : State) : s.tick.I = s.I := by
  unfold State.tick State.tickSound State.tickDelay; split_ifs <;> rfl

@[simp] theorem State.tick_pc (s : State) : s.tick.pc = s.pc := by
  unfold State.tick State.tickSound State.tickDelay; split_ifs <;> rfl

@[simp] theorem State.tick_Stack (s : State) : s.tick.Stack = s.Stack := by
  unfold State.tick State.tickSound State.tickDelay; split_ifs <;> rfl

@[simp] theorem State.tick_sp (s : State) : s.tick.sp = s.sp := by
  unfold State.tick State.tickSound State.tickDelay; split_ifs <;> rfl

@[simp] theorem State.tick_Disp (s : State) : s.tick.Disp = s.Disp := by
  unfold State.tick State.tickSound State.tickDelay; split_ifs <;> rfl

@[simp] theorem State.tick_Key (s : State) : s.tick.Key = s.Key := by
  unfold State.tick State.tickSound State.tickDelay; split_ifs <;> rfl

@[simp] theorem State.tick_opcode (s : State) : s.tick.opcode = s.opcode := by
  unfold State.tick State.tickSound State.tickDelay; split_ifs <;> rfl

@[simp] theorem State.tick_redraw (s : State) : s.tick.redraw = s.redraw := by
  unfold State.tick State.tickSound State.tickDelay; split_ifs <;> rfl

@[simp] theorem State.tick_unknown (s : State) : s.tick.unknown = s.unknown := by
  unfold State.tick State.tickSound State.tickDelay; split_ifs <;> rfl

@[simp] theorem State.tick_fault (s : State) : s.tick.fault = s.fault := by
  unfold State.tick State.tickSound State.tickDelay; split_ifs <;> rfl

@[simp] theorem State.tick_drawCount (s : State) : s.tick.drawCount = s.drawCount := by
  unfold State.tick State.tickSound State.tickDelay; split_ifs <;> rfl

@[simp] theorem State.tick_refusalMark (s : State) : s.tick.refusalMark = s.refusalMark := by
  unfold State.tick State.tickSound State.tickDelay; split_ifs <;> rfl

@[simp] theorem State.getV_tick (s : State) (r : Reg) : s.tick.getV r = s.getV r := by simp [State.getV]

@[simp] theorem State.memRead_tick (s : State) (a : Nat) : s.tick.memRead a = s.memRead a := by simp [State.memRead]

@[simp] theorem State.getKey_tick (s : State) (k : Fin 16) : s.tick.getKey k = s.getKey k := by simp [State.getKey]

theorem State.tick_DT (s : State) : s.tick.DT = if s.DT = 0 then 0 else s.DT - 1 := by
  unfold State.tick State.tickSound State.tickDelay; split_ifs <;> simp_all

theorem State.tick_ST (s : State) : s.tick.ST = if s.ST = 0 then 0 else s.ST - 1 := by
  unfold State.tick State.tickSound State.tickDelay; split_ifs <;> simp_all

theorem State.tick_beep (s : State) : s.tick.beep = (s.beep || s.ST == 1) := by
  unfold State.tick State.tickSound State.tickDelay; split_ifs <;> simp_all

/-! ## The end of a cycle -/

theorem endCycle_of_fault {w : Word} {t : State} (h : t.fault ≠ none) : endCycle w t = t := by
  simp [endCycle, Option.isSome_iff_ne_none, h]

theorem endCycle_of_no_fault {w : Word} {t : State} (h : t.fault = none) : endCycle w t = (t.setOpcode w).tick := by
  simp [endCycle, h]

/-- The end of a cycle neither raises nor clears a fault. -/
@[simp] theorem endCycle_fault (w : Word) (t : State) : (endCycle w t).fault = t.fault := by
  unfold endCycle; split <;> simp

end Sys2Proof.Machine
end

