-- ==== Sys2Proof/Laws/Decode.lean ====
section
/-! SUPPORT. The fields of a word written in each format of 30_encoding.md R72, the fields as plain arithmetic, and the
decode of each family as one equation. -/

namespace Sys2Proof

/-! ## Fields as arithmetic on the word -/

theorem slice_op (w : Word) : slice w 15 12 = w.toNat / 4096 := by
  have := w.isLt
  simp only [slice]; omega

theorem slice_n (w : Word) : slice w 3 0 = w.toNat % 16 := by simp [slice]

theorem slice_nn (w : Word) : slice w 7 0 = w.toNat % 256 := by simp [slice]

theorem val_fieldX (w : Word) : (fieldX w).val = w.toNat / 256 % 16 := by simp [fieldX, slice, Fin.ofNat]

theorem val_fieldY (w : Word) : (fieldY w).val = w.toNat / 16 % 16 := by simp [fieldY, slice, Fin.ofNat]

theorem val_fieldN (w : Word) : (fieldN w).val = w.toNat % 16 := by simp [fieldN, slice, Fin.ofNat]

theorem toNat_fieldNN (w : Word) : (fieldNN w).toNat = w.toNat % 256 := by simp [fieldNN, slice, u8]

theorem toNat_fieldNNN (w : Word) : (fieldNNN w).toNat = w.toNat % 4096 := by simp [fieldNNN, slice]

/-! ## The words of the three formats -/

theorem toNat_wordNNN {op : Nat} (h : op < 16) (nnn : Addr12) : (wordNNN op nnn).toNat = op * 4096 + nnn.toNat := by
  have := nnn.isLt
  simp only [wordNNN, u16, BitVec.toNat_ofNat]; omega

theorem toNat_wordXNN {op nn : Nat} (h : op < 16) (hn : nn < 256) (x : Reg) :
    (wordXNN op x nn).toNat = op * 4096 + x.val * 256 + nn := by
  have := x.isLt
  simp only [wordXNN, u16, BitVec.toNat_ofNat]; omega

theorem toNat_wordXYN {op n : Nat} (h : op < 16) (hn : n < 16) (x y : Reg) :
    (wordXYN op x y n).toNat = op * 4096 + x.val * 256 + y.val * 16 + n := by
  have := x.isLt; have := y.isLt
  simp only [wordXYN, u16, BitVec.toNat_ofNat]; omega

/-! ## The decode of each family -/

theorem decode_0 {w : Word} (h : w.toNat / 4096 = 0x0) : decode w = decode0 w := by
  unfold decode; rw [slice_op, h]; rfl

theorem decode_1 {w : Word} (h : w.toNat / 4096 = 0x1) : decode w = .ok (.jp (fieldNNN w)) := by
  unfold decode; rw [slice_op, h]; rfl

theorem decode_2 {w : Word} (h : w.toNat / 4096 = 0x2) : decode w = .ok (.call (fieldNNN w)) := by
  unfold decode; rw [slice_op, h]; rfl

theorem decode_3 {w : Word} (h : w.toNat / 4096 = 0x3) : decode w = .ok (.seImm (fieldX w) (fieldNN w)) := by
  unfold decode; rw [slice_op, h]; rfl

theorem decode_4 {w : Word} (h : w.toNat / 4096 = 0x4) : decode w = .ok (.sneImm (fieldX w) (fieldNN w)) := by
  unfold decode; rw [slice_op, h]; rfl

theorem decode_5 {w : Word} (h : w.toNat / 4096 = 0x5) :
    decode w = decodeN0 w (.seReg (fieldX w) (fieldY w)) .family5 := by
  unfold decode; rw [slice_op, h]; rfl

theorem decode_6 {w : Word} (h : w.toNat / 4096 = 0x6) : decode w = .ok (.ldImm (fieldX w) (fieldNN w)) := by
  unfold decode; rw [slice_op, h]; rfl

theorem decode_7 {w : Word} (h : w.toNat / 4096 = 0x7) : decode w = .ok (.addImm (fieldX w) (fieldNN w)) := by
  unfold decode; rw [slice_op, h]; rfl

theorem decode_8 {w : Word} (h : w.toNat / 4096 = 0x8) : decode w = decode8 w := by
  unfold decode; rw [slice_op, h]; rfl

theorem decode_9 {w : Word} (h : w.toNat / 4096 = 0x9) :
    decode w = decodeN0 w (.sneReg (fieldX w) (fieldY w)) .family9 := by
  unfold decode; rw [slice_op, h]; rfl

theorem decode_A {w : Word} (h : w.toNat / 4096 = 0xA) : decode w = .ok (.ldI (fieldNNN w)) := by
  unfold decode; rw [slice_op, h]; rfl

theorem decode_B {w : Word} (h : w.toNat / 4096 = 0xB) : decode w = .ok (.jpV0 (fieldNNN w)) := by
  unfold decode; rw [slice_op, h]; rfl

theorem decode_C {w : Word} (h : w.toNat / 4096 = 0xC) : decode w = .ok (.rnd (fieldX w) (fieldNN w)) := by
  unfold decode; rw [slice_op, h]; rfl

theorem decode_D {w : Word} (h : w.toNat / 4096 = 0xD) :
    decode w = .ok (.drw (fieldX w) (fieldY w) (fieldN w)) := by
  unfold decode; rw [slice_op, h]; rfl

theorem decode_E {w : Word} (h : w.toNat / 4096 = 0xE) : decode w = decodeE w := by
  unfold decode; rw [slice_op, h]; rfl

theorem decode_F {w : Word} (h : w.toNat / 4096 = 0xF) : decode w = decodeF w := by
  unfold decode; rw [slice_op, h]; rfl

/-- The top nibble of a word is one of 16. -/
theorem op_lt (w : Word) : w.toNat / 4096 < 16 := by
  have := w.isLt
  omega

/-- A word is the word of its value. -/
theorem u16_toNat (w : Word) : u16 w.toNat = w := by simp [u16]

end Sys2Proof
end

