-- ==== Sys2Proof/Laws/PerInstr.lean ====
section
/-! SUPPORT. Per instruction: the encoded word has every fixed bit that the instruction's row of spec/opcode_table.json
gives. The encoder is written from the patterns of 30_encoding.md R79, the rows from the table, so this compares the two. -/

open Sys2Proof

/-- The word of the instruction has the fixed bits of its row of spec/opcode_table.json. -/
def Sys2Proof.Laws.RowMatch.Statement (i : Sys2Proof.Instr) : Prop := i.row.admits (encode i)

namespace Sys2Proof.Laws.RowMatch

theorem nnn_admits {s : String} (op : Nat) (nnn : Addr12) (h : op < 16) :
    OpcodeRow.admits ⟨s, [⟨15, 12, op⟩]⟩ (wordNNN op nnn) := by
  have := nnn.isLt
  simp only [OpcodeRow.admits, List.mem_singleton, forall_eq, wordNNN, u16, BitVec.toNat_ofNat]; omega

theorem xnn_admits {s : String} (op : Nat) (x : Reg) (nn : Byte) (h : op < 16) :
    OpcodeRow.admits ⟨s, [⟨15, 12, op⟩]⟩ (wordXNN op x nn.toNat) := by
  have := nn.isLt; have := x.isLt
  simp only [OpcodeRow.admits, List.mem_singleton, forall_eq, wordXNN, u16, BitVec.toNat_ofNat]; omega

theorem xyn_admits {s : String} (op : Nat) (x y : Reg) (n : Rows) (h : op < 16) :
    OpcodeRow.admits ⟨s, [⟨15, 12, op⟩]⟩ (wordXYN op x y n.val) := by
  have := n.isLt; have := x.isLt; have := y.isLt
  simp only [OpcodeRow.admits, List.mem_singleton, forall_eq, wordXYN, u16, BitVec.toNat_ofNat]; omega

theorem xy_admits {s : String} (n op : Nat) (x y : Reg) (h : op < 16) (hn : n < 16) :
    OpcodeRow.admits ⟨s, [⟨3, 0, n⟩, ⟨15, 12, op⟩]⟩ (wordXYN op x y n) := by
  have := x.isLt; have := y.isLt
  simp only [OpcodeRow.admits, List.mem_cons, List.not_mem_nil, or_false, forall_eq_or_imp, forall_eq, wordXYN, u16,
    BitVec.toNat_ofNat]
  omega

theorem x_admits {s : String} (nn op : Nat) (x : Reg) (h : op < 16) (hn : nn < 256) :
    OpcodeRow.admits ⟨s, [⟨7, 0, nn⟩, ⟨15, 12, op⟩]⟩ (wordXNN op x nn) := by
  have := x.isLt
  simp only [OpcodeRow.admits, List.mem_cons, List.not_mem_nil, or_false, forall_eq_or_imp, forall_eq, wordXNN, u16,
    BitVec.toNat_ofNat]
  omega

end Sys2Proof.Laws.RowMatch

theorem Sys2Proof.Laws.RowMatch.cls : Sys2Proof.Laws.RowMatch.Statement (.cls) := by
  simp [Sys2Proof.Laws.RowMatch.Statement, Instr.row, OpcodeRow.admits, encode]

theorem Sys2Proof.Laws.RowMatch.ret : Sys2Proof.Laws.RowMatch.Statement (.ret) := by
  simp [Sys2Proof.Laws.RowMatch.Statement, Instr.row, OpcodeRow.admits, encode]

theorem Sys2Proof.Laws.RowMatch.jp (nnn : Addr12) : Sys2Proof.Laws.RowMatch.Statement (.jp nnn) := nnn_admits _ nnn (by omega)

theorem Sys2Proof.Laws.RowMatch.call (nnn : Addr12) : Sys2Proof.Laws.RowMatch.Statement (.call nnn) := nnn_admits _ nnn (by omega)

theorem Sys2Proof.Laws.RowMatch.seImm (x : Reg) (nn : Byte) : Sys2Proof.Laws.RowMatch.Statement (.seImm x nn) := xnn_admits _ x nn (by omega)

theorem Sys2Proof.Laws.RowMatch.sneImm (x : Reg) (nn : Byte) : Sys2Proof.Laws.RowMatch.Statement (.sneImm x nn) := xnn_admits _ x nn (by omega)

theorem Sys2Proof.Laws.RowMatch.seReg (x y : Reg) : Sys2Proof.Laws.RowMatch.Statement (.seReg x y) := xy_admits _ _ x y (by omega) (by omega)

theorem Sys2Proof.Laws.RowMatch.ldImm (x : Reg) (nn : Byte) : Sys2Proof.Laws.RowMatch.Statement (.ldImm x nn) := xnn_admits _ x nn (by omega)

theorem Sys2Proof.Laws.RowMatch.addImm (x : Reg) (nn : Byte) : Sys2Proof.Laws.RowMatch.Statement (.addImm x nn) := xnn_admits _ x nn (by omega)

theorem Sys2Proof.Laws.RowMatch.ldReg (x y : Reg) : Sys2Proof.Laws.RowMatch.Statement (.ldReg x y) := xy_admits _ _ x y (by omega) (by omega)

theorem Sys2Proof.Laws.RowMatch.orReg (x y : Reg) : Sys2Proof.Laws.RowMatch.Statement (.orReg x y) := xy_admits _ _ x y (by omega) (by omega)

theorem Sys2Proof.Laws.RowMatch.andReg (x y : Reg) : Sys2Proof.Laws.RowMatch.Statement (.andReg x y) := xy_admits _ _ x y (by omega) (by omega)

theorem Sys2Proof.Laws.RowMatch.xorReg (x y : Reg) : Sys2Proof.Laws.RowMatch.Statement (.xorReg x y) := xy_admits _ _ x y (by omega) (by omega)

theorem Sys2Proof.Laws.RowMatch.addReg (x y : Reg) : Sys2Proof.Laws.RowMatch.Statement (.addReg x y) := xy_admits _ _ x y (by omega) (by omega)

theorem Sys2Proof.Laws.RowMatch.sub (x y : Reg) : Sys2Proof.Laws.RowMatch.Statement (.sub x y) := xy_admits _ _ x y (by omega) (by omega)

theorem Sys2Proof.Laws.RowMatch.shr (x y : Reg) : Sys2Proof.Laws.RowMatch.Statement (.shr x y) := xy_admits _ _ x y (by omega) (by omega)

theorem Sys2Proof.Laws.RowMatch.subn (x y : Reg) : Sys2Proof.Laws.RowMatch.Statement (.subn x y) := xy_admits _ _ x y (by omega) (by omega)

theorem Sys2Proof.Laws.RowMatch.shl (x y : Reg) : Sys2Proof.Laws.RowMatch.Statement (.shl x y) := xy_admits _ _ x y (by omega) (by omega)

theorem Sys2Proof.Laws.RowMatch.sneReg (x y : Reg) : Sys2Proof.Laws.RowMatch.Statement (.sneReg x y) := xy_admits _ _ x y (by omega) (by omega)

theorem Sys2Proof.Laws.RowMatch.ldI (nnn : Addr12) : Sys2Proof.Laws.RowMatch.Statement (.ldI nnn) := nnn_admits _ nnn (by omega)

theorem Sys2Proof.Laws.RowMatch.jpV0 (nnn : Addr12) : Sys2Proof.Laws.RowMatch.Statement (.jpV0 nnn) := nnn_admits _ nnn (by omega)

theorem Sys2Proof.Laws.RowMatch.rnd (x : Reg) (nn : Byte) : Sys2Proof.Laws.RowMatch.Statement (.rnd x nn) := xnn_admits _ x nn (by omega)

theorem Sys2Proof.Laws.RowMatch.drw (x y : Reg) (n : Rows) : Sys2Proof.Laws.RowMatch.Statement (.drw x y n) := xyn_admits _ x y n (by omega)

theorem Sys2Proof.Laws.RowMatch.skp (x : Reg) : Sys2Proof.Laws.RowMatch.Statement (.skp x) := x_admits _ _ x (by omega) (by omega)

theorem Sys2Proof.Laws.RowMatch.sknp (x : Reg) : Sys2Proof.Laws.RowMatch.Statement (.sknp x) := x_admits _ _ x (by omega) (by omega)

theorem Sys2Proof.Laws.RowMatch.ldVxDt (x : Reg) : Sys2Proof.Laws.RowMatch.Statement (.ldVxDt x) := x_admits _ _ x (by omega) (by omega)

theorem Sys2Proof.Laws.RowMatch.ldVxK (x : Reg) : Sys2Proof.Laws.RowMatch.Statement (.ldVxK x) := x_admits _ _ x (by omega) (by omega)

theorem Sys2Proof.Laws.RowMatch.ldDtVx (x : Reg) : Sys2Proof.Laws.RowMatch.Statement (.ldDtVx x) := x_admits _ _ x (by omega) (by omega)

theorem Sys2Proof.Laws.RowMatch.ldStVx (x : Reg) : Sys2Proof.Laws.RowMatch.Statement (.ldStVx x) := x_admits _ _ x (by omega) (by omega)

theorem Sys2Proof.Laws.RowMatch.addI (x : Reg) : Sys2Proof.Laws.RowMatch.Statement (.addI x) := x_admits _ _ x (by omega) (by omega)

theorem Sys2Proof.Laws.RowMatch.ldF (x : Reg) : Sys2Proof.Laws.RowMatch.Statement (.ldF x) := x_admits _ _ x (by omega) (by omega)

theorem Sys2Proof.Laws.RowMatch.ldB (x : Reg) : Sys2Proof.Laws.RowMatch.Statement (.ldB x) := x_admits _ _ x (by omega) (by omega)

theorem Sys2Proof.Laws.RowMatch.ldIVx (x : Reg) : Sys2Proof.Laws.RowMatch.Statement (.ldIVx x) := x_admits _ _ x (by omega) (by omega)

theorem Sys2Proof.Laws.RowMatch.ldVxI (x : Reg) : Sys2Proof.Laws.RowMatch.Statement (.ldVxI x) := x_admits _ _ x (by omega) (by omega)
end

