-- ==== Sys2Proof/Tests/Slice0.lean ====
section
/-! SUPPORT. Tests. The words are written out bit by bit from the patterns of 30_encoding.md R79. Start states and expected
results are those of 95_test_vectors.md, whose vector each test names. A witness shows a state and operands that meet
the hypotheses of the statement it is named after. -/

namespace Sys2Proof.Tests

open Sys2Proof Sys2Proof.Machine

/-! ## Helpers -/

/-- S0 of 95_test_vectors.md. -/
def s0 : State := State.reset

/-- S0 with registers changed. -/
def withV (l : List (Reg × Byte)) : State := l.foldl (fun s p => s.setV p.1 p.2) s0

/-- One cycle with the word stored at `pc`. -/
def cycle (w : Nat) (s : State) : Option State :=
  match step (s.withFetchWord 16 w) with
  | .next t => some t
  | .fault _ | .refused _ => none

/-- What a cycle shows: some registers, and `pc`. -/
def regsPc (w : Nat) (s : State) (rs : List Reg) : Option (List Byte × Word) :=
  (cycle w s).map fun t => (rs.map t.getV, t.pc)

/-- What a cycle leaves in `pc`, from registers. -/
def pcAfter (w : Nat) (s : State) : Option Word := (cycle w s).map fun t => t.pc

/-- The fault record a cycle leaves. -/
def faultAfter (w : Nat) (s : State) : Option (Option FaultRecord) := (cycle w s).map fun t => t.fault

/-- Keys of a keypad on which only the listed ones are pressed. -/
def keys (l : List Nat) : Vector Bool 16 := Vector.ofFn fun k => l.contains k.val

/-- S0 with a program counter. -/
def atPc (pc : Word) : State := { s0 with pc := pc }

/-! ## Well-formedness: an ill-formed word for each set of R76, which the check refuses -/

theorem test_wf_family0 : wellFormed 0x00E1 = false ∧ Unrecognized.holds .family0 0x00E1 = true := by decide
theorem test_wf_family5 : wellFormed 0x5121 = false ∧ Unrecognized.holds .family5 0x5121 = true := by decide
theorem test_wf_family8 : wellFormed 0x812F = false ∧ Unrecognized.holds .family8 0x812F = true := by decide
theorem test_wf_family9 : wellFormed 0x9121 = false ∧ Unrecognized.holds .family9 0x9121 = true := by decide
theorem test_wf_familyE : wellFormed 0xE19F = false ∧ Unrecognized.holds .familyE 0xE19F = true := by decide
theorem test_wf_familyF : wellFormed 0xF1FF = false ∧ Unrecognized.holds .familyF 0xF1FF = true := by decide
theorem test_wf_accepts : wellFormed 0x00E0 = true ∧ wellFormed 0x8AB5 = true ∧ wellFormed 0xF10A = true := by decide

/-! ## Decode: a word of every instruction, bit by bit (R79), and a word of every set of R76 -/

theorem test_decode_control :
    decode 0b0000000011100000 = .ok .cls ∧ decode 0b0000000011101110 = .ok .ret ∧
    decode 0b0001001000101000 = .ok (.jp 0x228) ∧ decode 0b0010101010111100 = .ok (.call 0xABC) ∧
    decode 0b1011001100000000 = .ok (.jpV0 0x300) := by decide

theorem test_decode_skips :
    decode 0b0011001101000010 = .ok (.seImm 3 0x42) ∧ decode 0b0100101000000001 = .ok (.sneImm 10 0x01) ∧
    decode 0b0101000100100000 = .ok (.seReg 1 2) ∧ decode 0b1001101010110000 = .ok (.sneReg 10 11) ∧
    decode 0b1110010110011110 = .ok (.skp 5) ∧ decode 0b1110010110100001 = .ok (.sknp 5) := by decide

theorem test_decode_immediate :
    decode 0b0110101010011100 = .ok (.ldImm 10 0x9C) ∧ decode 0b0111111111111111 = .ok (.addImm 15 0xFF) ∧
    decode 0b1010111111111111 = .ok (.ldI 0xFFF) ∧ decode 0b1100001100001111 = .ok (.rnd 3 0x0F) := by decide

theorem test_decode_alu :
    decode 0b1000000100100000 = .ok (.ldReg 1 2) ∧ decode 0b1000000100100001 = .ok (.orReg 1 2) ∧
    decode 0b1000000100100010 = .ok (.andReg 1 2) ∧ decode 0b1000000100100011 = .ok (.xorReg 1 2) ∧
    decode 0b1000000100100100 = .ok (.addReg 1 2) ∧ decode 0b1000000100100101 = .ok (.sub 1 2) ∧
    decode 0b1000000100100110 = .ok (.shr 1 2) ∧ decode 0b1000000100100111 = .ok (.subn 1 2) ∧
    decode 0b1000111100001110 = .ok (.shl 15 0) := by decide

theorem test_decode_draw : decode 0b1101000100100101 = .ok (.drw 1 2 5) := by decide

theorem test_decode_misc :
    decode 0b1111010000000111 = .ok (.ldVxDt 4) ∧ decode 0b1111000100001010 = .ok (.ldVxK 1) ∧
    decode 0b1111001100010101 = .ok (.ldDtVx 3) ∧ decode 0b1111000000011000 = .ok (.ldStVx 0) ∧
    decode 0b1111001100011110 = .ok (.addI 3) ∧ decode 0b1111000000101001 = .ok (.ldF 0) ∧
    decode 0b1111001000110011 = .ok (.ldB 2) ∧ decode 0b1111001001010101 = .ok (.ldIVx 2) ∧
    decode 0b1111111101100101 = .ok (.ldVxI 15) := by decide

theorem test_decode_rejects :
    decode 0x0000 = .error .family0 ∧ decode 0x00E1 = .error .family0 ∧ decode 0x5121 = .error .family5 ∧
    decode 0x8128 = .error .family8 ∧ decode 0x812F = .error .family8 ∧ decode 0x9121 = .error .family9 ∧
    decode 0xE19F = .error .familyE ∧ decode 0xF000 = .error .familyF ∧ decode 0xF1FF = .error .familyF := by decide

theorem test_decode_table_word :
    decodeTableWord 16 0xD125 = some (.drw 1 2 5) ∧ decodeTableWord 16 0xE19F = none ∧
    (State.reset.withFetchWord 16 0xD125).wordAtPc = 0xD125 := by decide

/-! ## Fetch and the cycle -/

/-- CY-1, CY-2 -/
theorem test_fetch_last : regsPc 0x6007 (atPc 0xFFE) [0] = some ([7], 0x1000) := by decide
theorem test_fetch_past : (match step (atPc 0x1000) with | .next t => t.fault | _ => none) =
    some ⟨.fetchBounds, 0x1000, none, 0x1000⟩ := by decide
/-- CY-3 -/
theorem test_fetch_straddles : (match step (atPc 0xFFF) with | .next t => t.fault | _ => none) =
    some ⟨.fetchBounds, 0xFFF, none, 0x1000⟩ := by decide
/-- CY-4 -/
theorem test_fetch_odd : regsPc 0x6005 (atPc 0x201) [0] = some ([5], 0x203) := by decide
/-- CY-6 -/
theorem test_unrecognized : (cycle 0x0000 { s0 with DT := 5, ST := 2 }).map
    (fun t => (t.unknown, t.DT, t.ST, t.pc, t.refusalMark)) = some (some ⟨0x200, 0x0000⟩, 4, 1, 0x200, true) := by decide
/-- CY-15 -/
theorem test_faulted_inert : step { s0 with DT := 5, ST := 5, fault := some ⟨.stackUnderflow, 0x200, some 0xEE, 0⟩ } =
    .next { s0 with DT := 5, ST := 5, fault := some ⟨.stackUnderflow, 0x200, some 0xEE, 0⟩ } := rfl
/-- CY-17 -/
theorem test_fault_no_tick : (cycle 0x00EE { s0 with DT := 5 }).map (fun t => (t.DT, t.opcode, t.fault)) =
    some (5, 0, some ⟨.stackUnderflow, 0x200, some 0x00EE, 0⟩) := by decide
/-- TK-14 -/
theorem test_tick : (cycle 0x6000 { s0 with DT := 1, ST := 1 }).map (fun t => (t.DT, t.ST, t.beep, t.opcode)) =
    some (0, 0, true, 0x6000) := by decide

/-! ## Control transfer -/

/-- CF-2 -/
theorem test_jp : pcAfter 0x1333 s0 = some 0x333 := by decide
/-- CF-6 -/
theorem test_call : (cycle 0x2400 { s0 with sp := 15, pc := 0x300 }).map (fun t => (t.Stack[15], t.sp, t.pc)) =
    some (0x300, 16, 0x400) := by decide
/-- CF-7 -/
theorem test_call_overflow : faultAfter 0x2400 { s0 with sp := 16 } =
    some (some ⟨.stackOverflow, 0x200, some 0x2400, 16⟩) := by decide
/-- CF-10 -/
theorem test_ret : (cycle 0x00EE { s0 with sp := 1, Stack := s0.Stack.set 0 0xFFE }).map
    (fun t => (t.sp, t.pc, t.Stack[0])) = some (0, 0x1000, 0xFFE) := by decide
/-- CF-9 -/
theorem test_ret_underflow : faultAfter 0x00EE s0 = some (some ⟨.stackUnderflow, 0x200, some 0x00EE, 0⟩) := by decide
/-- CF-13 -/
theorem test_jpV0 : pcAfter 0xBFFF (withV [(0, 0xFF)]) = some 0x10FE := by decide
/-- CF-12 -/
theorem test_jpV0_uses_v0 : pcAfter 0xB500 (withV [(0, 2), (5, 9)]) = some 0x502 := by decide

/-! ## Skips -/

/-- SRC-2a, SRC-2b -/
theorem test_seImm : pcAfter 0x3342 (withV [(3, 0x42)]) = some 0x204 ∧ pcAfter 0x3342 (withV [(3, 0x41)]) = some 0x202 := by
  decide
/-- SRC-2c, SK-1 -/
theorem test_sneImm : pcAfter 0x4342 (withV [(3, 0x42)]) = some 0x202 ∧ pcAfter 0x4300 (withV [(3, 0x42)]) = some 0x204 := by
  decide
/-- SRC-2d, SK-2 -/
theorem test_seReg : pcAfter 0x5120 (withV [(1, 7), (2, 7)]) = some 0x204 ∧
    pcAfter 0x5120 (withV [(1, 7), (2, 8)]) = some 0x202 := by decide
/-- SRC-2e, SK-4 -/
theorem test_sneReg : pcAfter 0x9120 (withV [(1, 7), (2, 7)]) = some 0x202 ∧
    pcAfter 0x9120 (withV [(1, 7), (2, 8)]) = some 0x204 := by decide
/-- SK-12, SK-7 -/
theorem test_skp : pcAfter 0xE59E { withV [(5, 15)] with Key := keys [15] } = some 0x204 ∧
    pcAfter 0xE59E (withV [(5, 0x0A)]) = some 0x202 := by decide
/-- SK-10 -/
theorem test_skp_range : faultAfter 0xE59E (withV [(5, 0x10)]) = some (some ⟨.keyIndex, 0x200, some 0xE59E, 16⟩) := by
  decide
/-- SK-8, SK-9 -/
theorem test_sknp : pcAfter 0xE5A1 (withV [(5, 0x0A)]) = some 0x204 ∧
    pcAfter 0xE5A1 { withV [(5, 0x0A)] with Key := keys [10] } = some 0x202 := by decide
/-- SK-11 -/
theorem test_sknp_range : faultAfter 0xE5A1 (withV [(5, 0xFF)]) = some (some ⟨.keyIndex, 0x200, some 0xE5A1, 255⟩) := by
  decide

/-! ## ALU -/

/-- SRC-1 -/
theorem test_ldImm : regsPc 0x6A9C s0 [10] = some ([0x9C], 0x202) := by decide
/-- AL-2 -/
theorem test_addImm : regsPc 0x7003 (withV [(0, 0xFE), (15, 0x55)]) [0, 15] = some ([0x01, 0x55], 0x202) := by decide
/-- AL-4 -/
theorem test_ldReg : regsPc 0x8120 (withV [(2, 0x33)]) [1, 2] = some ([0x33, 0x33], 0x202) := by decide
/-- AL-5 -/
theorem test_or : regsPc 0x8121 (withV [(1, 0xF0), (2, 0x0F), (15, 0x77)]) [1, 15] = some ([0xFF, 0x77], 0x202) := by decide
/-- AL-6 -/
theorem test_and : regsPc 0x8122 (withV [(1, 0xF3), (2, 0x3F), (15, 1)]) [1, 15] = some ([0x33, 1], 0x202) := by decide
/-- AL-7 -/
theorem test_xor : regsPc 0x8123 (withV [(1, 0xFF), (2, 0x0F)]) [1] = some ([0xF0], 0x202) := by decide
/-- AL-9 -/
theorem test_addReg : regsPc 0x8014 (withV [(0, 0x80), (1, 0x80)]) [0, 15] = some ([0, 1], 0x202) := by decide
/-- AL-12 -/
theorem test_addReg_vf : regsPc 0x8F04 (withV [(15, 200), (0, 100)]) [15] = some ([1], 0x202) := by decide
/-- AL-14 -/
theorem test_sub : regsPc 0x8015 (withV [(0, 5), (1, 10)]) [0, 15] = some ([0xFB, 0], 0x202) := by decide
/-- AL-16 -/
theorem test_sub_equal : regsPc 0x8015 (withV [(0, 7), (1, 7)]) [0, 15] = some ([0, 1], 0x202) := by decide
/-- AL-19 -/
theorem test_shr : regsPc 0x8126 (withV [(1, 0x04), (2, 0xFF)]) [1, 15] = some ([0x02, 0], 0x202) := by decide
/-- AL-20 -/
theorem test_shr_vf : regsPc 0x8F06 (withV [(15, 0x03)]) [15] = some ([1], 0x202) := by decide
/-- AL-22 -/
theorem test_subn : regsPc 0x8017 (withV [(0, 10), (1, 5)]) [0, 15] = some ([0xFB, 0], 0x202) := by decide
/-- AL-23 -/
theorem test_subn_no_borrow : regsPc 0x8017 (withV [(0, 5), (1, 10)]) [0, 15] = some ([5, 1], 0x202) := by decide
/-- AL-25 -/
theorem test_shl : regsPc 0x810E (withV [(1, 0x81)]) [1, 15] = some ([0x02, 1], 0x202) := by decide
/-- AL-27 -/
theorem test_shl_vf : regsPc 0x8F0E (withV [(15, 0x80)]) [15] = some ([1], 0x202) := by decide
/-- AL-29: whatever the draw is -/
theorem test_rnd : ∃ t, exec (.rnd 3 0x00) s0 = .next t ∧ t.getV 3 = 0 ∧ t.pc = 0x202 := ⟨_, rfl, by simp, rfl⟩

/-! ## Index and memory -/

/-- IM-2 -/
theorem test_ldI : (cycle 0xAFFF s0).map (fun t => (t.I, t.pc)) = some (0xFFF, 0x202) := by decide
/-- SRC-8 -/
theorem test_addI : (cycle 0xF31E { withV [(3, 3)] with I := 0xFFE }).map (fun t => (t.I, t.getV 15)) = some (2, 1) := by
  decide
/-- IM-6 -/
theorem test_addI_vf : (cycle 0xFF1E { withV [(15, 1)] with I := 0xFFE }).map (fun t => (t.I, t.getV 15)) = some (0, 0) := by
  decide
/-- IM-11 -/
theorem test_ldF : (cycle 0xF029 (withV [(0, 0xFF)])).map (fun t => (t.I, t.pc)) = some (1275, 0x202) := by decide
/-- SRC-5 -/
theorem test_ldB : (cycle 0xF233 { withV [(2, 156)] with I := 0x300 }).map
    (fun t => ([0x300, 0x301, 0x302, 0x303].map t.memRead, t.I, t.pc)) = some ([1, 5, 6, 0], 0x300, 0x202) := by decide
/-- IM-16 -/
theorem test_ldB_range : (cycle 0xF033 { withV [(0, 123)] with I := 0xFFE }).map (fun t => (t.fault, t.memRead 0xFFE)) =
    some (some ⟨.writeBounds, 0x200, some 0xF033, 0x1000⟩, 0) := by decide
/-- IM-17 -/
theorem test_ldIVx : (cycle 0xF255 { withV [(0, 1), (1, 2), (2, 3), (3, 4)] with I := 0x300 }).map
    (fun t => ([0x300, 0x301, 0x302, 0x303].map t.memRead, t.I)) = some ([1, 2, 3, 0], 0x303) := by decide
/-- IM-21 -/
theorem test_ldIVx_range : faultAfter 0xF055 { s0 with I := 0x1000 } =
    some (some ⟨.writeBounds, 0x200, some 0xF055, 0x1000⟩) := by decide
/-- IM-22 -/
theorem test_ldVxI : (cycle 0xF265 (({ s0 with I := 0x300 }).memWriteBlock 0x300 [1, 5, 6, 7])).map
    (fun t => ([0, 1, 2, 3].map t.getV, t.I)) = some ([1, 5, 6, 0], 0x303) := by decide
/-- IM-24 -/
theorem test_ldVxI_range : (cycle 0xF365 { withV [(0, 9)] with I := 0xFFE }).map (fun t => (t.fault, t.getV 0)) =
    some (some ⟨.readBounds, 0x200, some 0xF365, 0x1000⟩, 9) := by decide

/-! ## Timers and keypad -/

/-- TK-1 -/
theorem test_ldVxDt : (cycle 0xF407 { s0 with DT := 9 }).map (fun t => (t.getV 4, t.DT)) = some (9, 8) := by decide
/-- TK-3 -/
theorem test_ldDtVx : (cycle 0xF315 (withV [(3, 3)])).map (fun t => t.DT) = some 2 := by decide
/-- TK-7 -/
theorem test_ldStVx : (cycle 0xF018 (withV [(0, 1)])).map (fun t => (t.ST, t.beep)) = some (0, true) := by decide
/-- TK-8 -/
theorem test_ldStVx_zero : (cycle 0xF018 { s0 with ST := 5 }).map (fun t => (t.ST, t.beep)) = some (0, false) := by decide
/-- TK-11 -/
theorem test_ldVxK : regsPc 0xF10A { s0 with Key := keys [3, 7] } [1] = some ([7], 0x202) := by decide
/-- TK-10 -/
theorem test_ldVxK_waits : (cycle 0xF10A { s0 with DT := 3 }).map (fun t => (t.getV 1, t.DT, t.pc)) =
    some (0, 2, 0x200) := by decide

/-! ## Display -/

/-- S0 with a sprite at 0x300, `I` on it, and two coordinates in V0 and V1. -/
def sprite (v0 v1 : Byte) (rows : List Byte) : State :=
  ({ withV [(0, v0), (1, v1)] with I := 0x300 }).memWriteBlock 0x300 rows

/-- CLS-1, with its first and last pixel -/
theorem test_cls : (cycle 0x00E0 { s0 with Disp := flipPixel (flipPixel s0.Disp 0) 2047, redraw := false }).map
    (fun t => (pixel t.Disp 0, pixel t.Disp 2047, t.redraw)) = some (false, false, true) := by decide
/-- DRW-4 -/
theorem test_drw : (cycle 0xD011 { sprite 0 0 [0x81] with Disp := flipPixel s0.Disp 7 }).map
    (fun t => (pixel t.Disp 0, pixel t.Disp 7, t.getV 15, t.redraw)) = some (true, false, 1, true) := by decide
/-- DRW-6 -/
theorem test_drw_range : faultAfter 0xD012 (sprite 0 31 [0xFF, 0xFF]) =
    some (some ⟨.displayBounds, 0x200, some 0xD012, 2048⟩) := by decide

/-! ## Reset and host -/

/-- CY-16 -/
theorem test_reset : (hostAct defaultFont .reset
    { withV [(3, 9)] with fault := some ⟨.stackUnderflow, 0x200, some 0xEE, 0⟩ }).1 = s0 := by decide +kernel
/-- LR-4 with a font that is not the default: it is back at 0 to 79 after `reset()` (R40). -/
theorem test_reset_font : [0, 79, 80].map
    (hostAct (Vector.replicate 80 0x5A) .reset (s0.memWriteBlock 0 [0x11])).1.memRead = [0x5A, 0x5A, 0] := by
  decide +kernel
/-- R38, the rows of digits 0, A and F, as DRW-13 and 10_state.md give them -/
theorem test_font : [0, 1, 2, 3, 4, 50, 51, 52, 53, 54, 75, 76, 77, 78, 79, 80].map s0.memRead =
    [0xF0, 0x90, 0x90, 0x90, 0xF0, 0xF0, 0x90, 0xF0, 0x90, 0x90, 0xF0, 0x80, 0xF0, 0x80, 0x80, 0] := by decide
/-- LR-2 -/
theorem test_load : [0x200, 0x201, 0x202, 0x203].map
    (hostAct defaultFont (.load [0xAA, 0xBB])
      (hostAct defaultFont (.load [0x11, 0x22, 0x33, 0x44]) s0).1).1.memRead = [0xAA, 0xBB, 0x33, 0x44] := by
  decide

/-! ## Witnesses: each hypothesis is met, each clause at a boundary of its range -/

/-- A state with the word stored where it fetches next. -/
def put (w : Nat) (s : State) : State := s.withFetchWord 16 w

theorem witness_EncodeAfterDecode : decode 0xD125 = .ok (.drw 1 2 5) := by decide

theorem witness_DecodeRejectsTheSetsOfR76 :
    decode 0x0000 = .error .family0 ∧ Unrecognized.holds .family0 0x0000 = true ∧
    decode 0x00EE = .ok .ret ∧ wellFormed 0x00EE = true := by decide

theorem witness_FetchComposesHighByteFirst :
    fetchable (put 0x6007 (atPc 4094)) ∧ ∃ t, step (put 0x6007 (atPc 4094)) = .next t ∧ t.fault = none :=
  ⟨by decide, _, rfl, rfl⟩

theorem witness_StepRunsTheDecodedInstruction :
    fetchable (put 0x6007 s0) ∧ decode (put 0x6007 s0).wordAtPc = .ok (.ldImm 0 7) ∧
    ∃ t, exec (.ldImm 0 7) (put 0x6007 s0) = .next t ∧ t.fault = none := ⟨by decide, by decide, _, rfl, rfl⟩

theorem witness_StepRunsTheDecodedInstruction_fault :
    fetchable (put 0x00EE s0) ∧ decode (put 0x00EE s0).wordAtPc = .ok .ret ∧
    ∃ t, exec .ret (put 0x00EE s0) = .next t ∧ t.fault ≠ none := ⟨by decide, by decide, _, rfl, by decide⟩

theorem witness_FetchPastMemoryFaults :
    (atPc 4095).fault = none ∧ 4094 < (atPc 4095).pc.toNat ∧ (atPc 4096).fault = none ∧ 4096 ≤ (atPc 4096).pc.toNat := by
  decide

/-- A faulted state, for the witnesses. -/
def faultedState : State := { s0 with fault := some ⟨.stackUnderflow, 0x200, some 0x00EE, 0⟩ }

theorem witness_FaultedCoreIsInert : faultedState.fault ≠ none ∧ HostAction.clearBeep ≠ HostAction.reset := by decide

theorem witness_FaultLastsUntilReset :
    faultedState.fault ≠ none ∧ Event.act .reset ∉ [.cycle, .act .clearBeep, .act (.load [0xAA]), .cycle] := by decide

theorem witness_FaultsArePrecise :
    (put 0x00EE (atPc 4094)).fault = none ∧
    ∃ t, step (put 0x00EE (atPc 4094)) = .next t ∧ t.fault ≠ none := ⟨by decide, _, rfl, by decide⟩

theorem witness_FaultRecordsNameTheirCause :
    (put 0x00EE (atPc 4094)).fault = none ∧
    ∃ t, step (put 0x00EE (atPc 4094)) = .next t ∧ t.fault = some ⟨.stackUnderflow, 4094, some 0x00EE, 0⟩ :=
  ⟨by decide, _, rfl, by decide⟩

/-- A fault record left by one cycle of an unfaulted state. -/
theorem witness_FaultRecordsNameTheirCause_kinds :
    faultAfter 0x2400 { s0 with sp := 16 } = some (some ⟨.stackOverflow, 0x200, some 0x2400, 16⟩) ∧
    faultAfter 0xF165 { s0 with I := 4095 } = some (some ⟨.readBounds, 0x200, some 0xF165, 4096⟩) ∧
    faultAfter 0xD012 { s0 with I := 4095 } = some (some ⟨.readBounds, 0x200, some 0xD012, 4096⟩) ∧
    faultAfter 0xF033 { s0 with I := 4094 } = some (some ⟨.writeBounds, 0x200, some 0xF033, 4096⟩) ∧
    faultAfter 0xF155 { s0 with I := 4095 } = some (some ⟨.writeBounds, 0x200, some 0xF155, 4096⟩) ∧
    faultAfter 0xE59E (withV [(5, 16)]) = some (some ⟨.keyIndex, 0x200, some 0xE59E, 16⟩) ∧
    faultAfter 0xE5A1 (withV [(5, 16)]) = some (some ⟨.keyIndex, 0x200, some 0xE5A1, 16⟩) := by decide

/-- DRW-9: one pixel past the end. -/
theorem witness_FaultRecordsNameTheirCause_display :
    faultAfter 0xD011 (({ withV [(0, 63), (1, 31)] with I := 0x300 }).memWriteBlock 0x300 [0x40]) =
      some (some ⟨.displayBounds, 0x200, some 0xD011, 2048⟩) := by decide

theorem witness_FaultRecordsNameTheirCause_fetch :
    (atPc 4095).fault = none ∧ ∃ t, step (atPc 4095) = .next t ∧ t.fault = some ⟨.fetchBounds, 4095, none, 4096⟩ :=
  ⟨by decide, _, rfl, by decide⟩

theorem witness_TimersTickEveryCycle :
    ∃ t, step (put 0x6000 { s0 with DT := 1, ST := 1 }) = .next t ∧ t.fault = none := ⟨_, rfl, rfl⟩

theorem witness_UnrecognizedWordStalls : stalled s0 ∧ stalled (put 0x5121 (atPc 4094)) := by decide

theorem witness_StalledCoreStaysStalled : stalled { s0 with ST := 1 } := by decide

theorem witness_SpinningAndWaitingCoresGoOn :
    spinning (put 0x1200 { s0 with DT := 9 }) ∧ spinning (put 0x1FFE (atPc 0xFFE)) ∧ quiescent (put 0x1200 s0) := by decide

theorem witness_SpinningAndWaitingCoresGoOn_wait : waiting (put 0xFF0A { s0 with DT := 3 }) :=
  ⟨by decide, ⟨15, by decide⟩, by decide⟩

/-- A state whose one step does not fault, for each arm of the statement. -/
def advances (w : Nat) (s : State) : Bool :=
  decide ((put w s).fault = none) && match step (put w s) with
    | .next t => decide (t.fault = none)
    | .fault _ | .refused _ => false

theorem witness_ProgramCounterMovesInFourWays_targets :
    advances 0x1FFF s0 = true ∧ advances 0x2FFF { s0 with sp := 15 } = true ∧
    advances 0xBFFF (withV [(0, 0xFF)]) = true ∧ advances 0x00EE { s0 with sp := 1 } = true := by decide

theorem witness_ProgramCounterMovesInFourWays_advances :
    advances 0x3300 s0 = true ∧ advances 0x4300 s0 = true ∧ advances 0x5120 s0 = true ∧ advances 0x9120 s0 = true ∧
    advances 0xE59E (withV [(5, 15)]) = true ∧ advances 0xE5A1 (withV [(5, 15)]) = true ∧
    advances 0xF10A s0 = true ∧ advances 0xF10A { s0 with Key := keys [15] } = true ∧
    advances 0x6001 (atPc 4094) = true ∧ advances 0x0000 s0 = true := by decide

theorem witness_CallPushesItsOwnAddress :
    ({ s0 with sp := 15 } : State).sp.val < 16 ∧ ({ s0 with sp := 16 } : State).sp.val = 16 := by decide

theorem witness_ReturnGoesTwoPastTheTop : 0 < ({ s0 with sp := 1 } : State).sp.val ∧ s0.sp.val = 0 := by decide

theorem witness_ReturnUndoesCall : ({ s0 with sp := 15 } : State).sp.val < 16 := by decide

theorem witness_SkipOnKey :
    ((withV [(5, 15)]).getV 5).toNat = (15 : Fin 16).val ∧ 15 < ((withV [(5, 16)]).getV 5).toNat := by decide

theorem witness_AddSetsCarry : (14 : Reg) ≠ VF := by decide

theorem witness_SubtractSetsNotBorrow : (0 : Reg) ≠ VF := by decide

theorem witness_ShiftsKeepTheBitShiftedOut : (14 : Reg) ≠ VF ∧ 6 < 7 := by decide

theorem witness_RandomByteIsMasked : (0x0F : Byte).getLsbD 4 = false := by decide

theorem witness_DecimalDigitsAreStored :
    ({ s0 with I := 4093 } : State).I.toNat + 2 ≤ 4095 ∧ 4095 < ({ s0 with I := 4094 } : State).I.toNat + 2 := by decide

theorem witness_BlockStore :
    ({ s0 with I := 4080 } : State).I.toNat + (15 : Reg).val ≤ 4095 ∧
    4095 < ({ s0 with I := 4096 } : State).I.toNat + (0 : Reg).val := by decide

theorem witness_BlockLoad :
    ({ s0 with I := 4095 } : State).I.toNat + (0 : Reg).val ≤ 4095 ∧
    4095 < ({ s0 with I := 4095 } : State).I.toNat + (1 : Reg).val := by decide

theorem witness_BlockLoadUndoesBlockStore : ({ s0 with I := 4080 } : State).I.toNat + (15 : Reg).val ≤ 4095 := by decide

/-- FX55 in the last place from which its store is fetched next. -/
def storesNext : State := put 0xF155 { atPc 4092 with I := 4094 }

theorem witness_StoreIsSeenByTheNextFetch :
    fetchable storesNext ∧ storesNext.pc.toNat ≤ 4092 ∧ decode storesNext.wordAtPc = .ok (.ldIVx 1) ∧
    0 < bytesStored (.ldIVx 1) ∧ storesNext.I.toNat + bytesStored (.ldIVx 1) ≤ 4096 := by decide

/-- FX33 whose last digit falls on the high byte of the next word. -/
def digitsNext : State := put 0xF033 { withV [(0, 7)] with I := 0x200 }

theorem witness_StoreIsSeenByTheNextFetch_digits :
    fetchable digitsNext ∧ digitsNext.pc.toNat ≤ 4092 ∧ decode digitsNext.wordAtPc = .ok (.ldB 0) ∧
    0 < bytesStored (.ldB 0) ∧ digitsNext.I.toNat + bytesStored (.ldB 0) ≤ 4096 := by decide

theorem witness_StoreIsSeenByTheNextFetch_load : fetchable (atPc 4094) ∧ (List.replicate 3584 (0 : Byte)).length ≤ 3584 :=
  ⟨by decide, by rw [List.length_replicate]⟩

/-- IM-25, its first cycle: the next word is the one stored. -/
theorem test_store_is_fetched : (cycle 0xF155 { withV [(0, 0x60), (1, 0x09)] with I := 0x202 }).map fetch =
    some (some 0x6009) := by decide

theorem witness_DelayTimerAccess :
    fetchable (put 0xF407 s0) ∧ decode (put 0xF407 s0).wordAtPc = .ok (.ldVxDt 4) ∧
    fetchable (put 0xF315 s0) ∧ decode (put 0xF315 s0).wordAtPc = .ok (.ldDtVx 3) := by decide

/-- FX15 followed by FX07. -/
def readsBack : State := (put 0xF315 (withV [(3, 3)])).memWriteBlock 0x202 [0xF4, 0x07]

theorem witness_DelayTimerAccess_next :
    fetchable readsBack ∧ decode readsBack.wordAtPc = .ok (.ldDtVx 3) ∧
    ∃ t, step readsBack = .next t ∧ fetchable t ∧ decode t.wordAtPc = .ok (.ldVxDt 4) := ⟨by decide, by decide, _, rfl, by decide⟩

theorem witness_SoundTimerWrite :
    fetchable (put 0xF018 (withV [(0, 1)])) ∧ decode (put 0xF018 (withV [(0, 1)])).wordAtPc = .ok (.ldStVx 0) := by decide

/-- A path of two cycles of a spinning core. -/
def beepPath : Nat → State
  | 0 => put 0x1200 { s0 with ST := 2 }
  | 1 => (put 0x1200 { s0 with ST := 1 }).setOpcode 0x1200
  | _ => ((put 0x1200 s0).setOpcode 0x1200).requestBeep

theorem witness_BeepComesWhenTheSoundTimerRunsOut :
    0 < 2 ∧ (beepPath 0).ST.toNat = 2 ∧
    ∀ j < 2, step (beepPath j) = .next (beepPath (j + 1)) ∧ (beepPath (j + 1)).fault = none ∧
      ∀ x, decode (beepPath j).wordAtPc ≠ .ok (.ldStVx x) := by
  refine ⟨by decide, by decide, fun j hj => ?_⟩
  obtain rfl | rfl : j = 0 ∨ j = 1 := by omega
  · exact ⟨rfl, rfl, fun x h => nomatch h.symm.trans (rfl : _ = Except.ok (Instr.jp 0x200))⟩
  · exact ⟨rfl, rfl, fun x h => nomatch h.symm.trans (rfl : _ = Except.ok (Instr.jp 0x200))⟩

theorem witness_KeyWaitTakesTheHighestKey :
    ((keys [3, 15])[(15 : Fin 16).val] = true ∧ ∀ j : Fin 16, (keys [3, 15])[j.val] = true → j ≤ 15) ∧
    ∀ j : Fin 16, s0.Key[j.val] = false := by decide

/-- A sprite with one bit, at the last address and on the last pixel. -/
def corner : State := ({ withV [(0, 63), (1, 31)] with I := 4095 }).memWriteBlock 4095 [0x80]

theorem witness_DrawInvertsTheTouchedPixels : drawable corner 0 1 1 ∧ touched corner 0 1 1 2047 := by decide

theorem witness_DrawInvertsTheTouchedPixels_untouched : ¬ touched corner 0 1 1 0 ∧ drawable corner 0 1 0 := by decide

theorem witness_DrawInvertsTheTouchedPixels_collision :
    ∃ p ≤ 2047, touched { corner with Disp := flipPixel s0.Disp 2047 } 0 1 1 p ∧
      pixel (flipPixel s0.Disp 2047) p = true := ⟨2047, by decide⟩

theorem witness_DrawInvertsTheTouchedPixels_clear : ¬ ∃ p ≤ 2047, touched corner 0 1 1 p ∧ pixel Display.clear p = true :=
  fun ⟨p, _, _, h⟩ => by simp at h

theorem witness_DrawReportsTheFirstFailingAccess_read :
    1 < (2 : Rows).val ∧ (∀ r < 1, rowInRange { s0 with I := 4095 } 0 1 r) ∧
    4095 < ({ s0 with I := 4095 } : State).I.toNat + 1 := by decide

theorem witness_DrawReportsTheFirstFailingAccess_display :
    0 < (1 : Rows).val ∧ (∀ r < 0, rowInRange (sprite 63 31 [0xC0]) 0 1 r) ∧ 1 < 8 ∧
    (sprite 63 31 [0xC0]).I.toNat + 0 ≤ 4095 ∧ spriteSet (sprite 63 31 [0xC0]) 0 1 ∧
    2047 < spriteAt (sprite 63 31 [0xC0]) 0 1 0 1 ∧
    ∀ c < 1, spriteSet (sprite 63 31 [0xC0]) 0 c → spriteAt (sprite 63 31 [0xC0]) 0 1 0 c ≤ 2047 := by decide

theorem witness_DrawingTwiceRestoresTheDisplay :
    (0 : Reg) ≠ VF ∧ (1 : Reg) ≠ VF ∧ drawable corner 0 1 1 ∧
    ∃ t, exec (.drw 0 1 1) corner = .next t ∧ t.getV 0 = corner.getV 0 ∧ t.getV 1 = corner.getV 1 :=
  ⟨by decide, by decide, by decide, _, rfl, by decide⟩

/-- X = Y = VF: the first draw leaves VF at 0, where it was, so the second is at the same place. -/
theorem witness_DrawingTwiceRestoresTheDisplay_vf :
    drawable (sprite 0 0 [0x81]) 15 15 1 ∧
    ∃ t, exec (.drw 15 15 1) (sprite 0 0 [0x81]) = .next t ∧ t.getV 15 = (sprite 0 0 [0x81]).getV 15 :=
  ⟨by decide, _, rfl, by decide⟩

theorem witness_InstructionsWriteOnlyWhatTheirRuleNames :
    ∃ t, exec (.ldIVx 15) { s0 with I := 4080 } = .next t ∧ t.I = 4096 := ⟨_, rfl, by decide⟩

theorem witness_OnlyTheNamedInstructionsWriteEachPart :
    ∃ t, step (put 0x1200 { s0 with beep := true }) = .next t ∧ t.redraw = true ∧ t.beep = true ∧
      wellFormed (put 0x1200 s0).wordAtPc = true ∧ decode (put 0x1200 s0).wordAtPc = .ok (.jp 0x200) :=
  ⟨_, rfl, by decide⟩

/-- A cycle that raises `beep`. -/
theorem witness_OnlyTheNamedInstructionsWriteEachPart_beep :
    ∃ t, step (put 0x1200 { s0 with ST := 1 }) = .next t ∧ t.beep ≠ (put 0x1200 { s0 with ST := 1 }).beep :=
  ⟨_, rfl, by decide⟩

theorem witness_MemoryStaysCanonical :
    (put 0xFF55 { s0 with I := 4080 }).mem.wf ∧ ∃ t, step (put 0xFF55 { s0 with I := 4080 }) = .next t ∧ t.fault = none :=
  ⟨by decide, _, rfl, rfl⟩

theorem witness_IndexStaysBounded :
    indexBounded (put 0xF01E { s0 with I := 4096 }) ∧
    ∃ t, step (put 0xF01E { s0 with I := 4096 }) = .next t ∧ t.I = 1 := ⟨by decide, _, rfl, by decide⟩

theorem witness_TargetsStayBounded :
    targetsBounded (put 0x00EE { s0 with sp := 1, Stack := s0.Stack.set 0 4094 }) ∧
    ∃ t, step (put 0x00EE { s0 with sp := 1, Stack := s0.Stack.set 0 4094 }) = .next t ∧ t.pc = 4096 :=
  ⟨by decide, _, rfl, by decide⟩

theorem witness_TargetsStayBounded_pc : targetsBounded (atPc 0x10FE) ∧ ∃ t, step (atPc 0x10FE) = .next t ∧ t.pc = 0x10FE :=
  ⟨by decide, _, rfl, by decide⟩

theorem witness_OnlyRandomReadsTheDraw :
    (∀ x nn, decode (put 0x1200 s0).wordAtPc ≠ .ok (.rnd x nn)) ∧ ∃ t, step (put 0x1200 s0) = .next t ∧ t.pc = 0x200 :=
  ⟨(fun x nn h => nomatch h.symm.trans (rfl : _ = Except.ok (Instr.jp 0x200))), _, rfl, by decide⟩

theorem witness_OutputsDoNotInfluenceTheCore : ∃ t, step (put 0x00E0 s0) = .next t ∧ t.redraw = true := ⟨_, rfl, by decide⟩

theorem witness_ParametersMatterOnlyWhereTheSourceIsOpen :
    (14 : Reg) ≠ VF ∧ (0 : Reg) ≠ VF ∧ (withV [(0, 1)]).I.toNat + ((withV [(0, 1)]).getV 0).toNat ≠ 0xFFF ∧
    (∃ t, execOrWith ⟨.resultLast, false, false, true⟩ 0 1 s0 = .next t) ∧ ∃ u, execOr 0 1 s0 = .next u :=
  ⟨by decide, by decide, by decide, ⟨_, rfl⟩, _, rfl⟩

theorem witness_LoadWritesTheImageOrNothing :
    (List.replicate 3584 (0 : Byte)).length ≤ 3584 ∧ 3584 < (List.replicate 3585 (0 : Byte)).length :=
  ⟨by rw [List.length_replicate], by rw [List.length_replicate]; omega⟩

theorem witness_BootRunsTheImage :
    ((0x12 : Byte) :: 0x00 :: List.replicate 3582 0).length ≤ 3584 ∧ decode (composeWord 0x12 0x00) = .ok (.jp 0x200) ∧
    ∃ t, exec (.jp 0x200) (boot defaultFont (0x12 :: 0x00 :: List.replicate 3582 0) s0) = .next t :=
  ⟨by rw [List.length_cons, List.length_cons, List.length_replicate], by decide, _, rfl⟩

/-- An image whose first word raises a fault. -/
theorem witness_BootRunsTheImage_fault :
    decode (composeWord 0x00 0xEE) = .ok .ret ∧
    ∃ t, exec .ret (boot defaultFont [0x00, 0xEE] s0) = .next t ∧ t.fault ≠ none := ⟨by decide, _, rfl, by decide⟩

end Sys2Proof.Tests
end

section
/-! SUPPORT. Reset with any font: what its memory reads, the frames of an update of memory or of the count of draws, and the
proof of `Obligations.ResetWithAnyFont`. -/

namespace Sys2Proof.Machine

/-! ## Frames of an update -/

/-- An update of memory changes memory alone. -/
theorem sameExcept_with_mem (s : State) (m : Memory) : sameExcept [.mem] s { s with mem := m } := by
  intro f hf
  cases f with
  | mem => simp at hf
  | _ => rfl

/-- An update of the count of draws changes that count alone. -/
theorem sameExcept_with_drawCount (s : State) (n : Nat) : sameExcept [.drawCount] s { s with drawCount := n } := by
  intro f hf
  cases f with
  | drawCount => simp at hf
  | mem => exact fun _ => rfl
  | _ => rfl

/-! ## The reset state with a font (R9, R38, R40) -/

theorem State.resetWith_mem_wf (font : Font) : (State.resetWith font).mem.wf :=
  Memory.wf_writeBlock Memory.wf_nil 0 font.toList

/-- The font's byte below 80, zero from there on. -/
theorem State.memRead_resetWith (font : Font) (a : Nat) : (State.resetWith font).memRead a = font[a]?.getD 0 := by
  have hread : (State.resetWith font).memRead a = font[a]?.getD (initialByte a) := by
    simpa [State.memRead, State.resetWith, Memory.read] using Memory.read_writeBlock [] 0 font.toList (by simp) a
  rw [hread]
  by_cases h : a < 80
  · simp [h]
  · simp [initialByte, h]

theorem getElem?_defaultFont (a : Nat) : defaultFont[a]?.getD 0 = initialByte a := by
  by_cases h : a < 80
  · simp [defaultFont, initialByte, h]
  · simp [initialByte, h]

/-- Memory is the one field in which the reset state with a font can differ from `State.reset`. -/
theorem State.resetWith_eq_reset {font : Font} (h : (State.resetWith font).mem = []) :
    State.resetWith font = State.reset :=
  congrArg (fun m => { State.reset with mem := m }) h

/-- The default font is what unlisted addresses read as, so by the canonical form writing it lists nothing. -/
theorem State.resetWith_defaultFont : State.resetWith defaultFont = State.reset :=
  State.resetWith_eq_reset <| Memory.ext (State.resetWith_mem_wf defaultFont) Memory.wf_nil fun a =>
    (State.memRead_resetWith defaultFont a).trans (getElem?_defaultFont a)

/-- Settles O57: the font is one block of writes at 0 over the reset memory, and `reset()` touches the count of draws
besides. -/
theorem resetWithAnyFont : Obligations.ResetWithAnyFont := by
  refine ⟨fun font => ⟨fun a h => ?_, fun a h => ?_, sameExcept_with_mem .reset _, rfl, fun s => ⟨fun _ => rfl, ?_⟩⟩,
    State.resetWith_defaultFont, ?_⟩
  · simp [State.memRead_resetWith, h]
  · simp [State.memRead_resetWith, h]
  · exact sameExcept_with_drawCount (State.resetWith font) s.drawCount
  · rw [coreWith, State.resetWith_defaultFont]; rfl

end Sys2Proof.Machine
end

section
/-! SUPPORT. What one instruction can do: the outcomes of each meaning that branches, the fields, registers and bytes that
every meaning leaves alone, and that it either takes a fault or leaves `fault` alone. -/

namespace Sys2Proof.Machine

/-! ## The outcomes of the meanings that branch -/

theorem execRet_cases {s t : State} (h : execRet s = .next t) :
    (s.sp.val = 0 ∧ t = s.raise .stackUnderflow (some (encode .ret)) s.sp.val) ∨
    (s.sp.val ≠ 0 ∧ t = s.pop.setPc (s.topOfStack.toNat + 2)) := by
  unfold execRet at h
  split at h <;> cases h
  · exact .inl ⟨‹_›, rfl⟩
  · exact .inr ⟨‹_›, rfl⟩

theorem execCall_cases {nnn : Addr12} {s t : State} (h : execCall nnn s = .next t) :
    (∃ hsp : s.sp.val < 16, t = (s.push s.pc hsp).setPc nnn.toNat) ∨
    (¬ s.sp.val < 16 ∧ t = s.raise .stackOverflow (some (encode (.call nnn))) s.sp.val) := by
  unfold execCall at h
  split at h <;> cases h
  · exact .inl ⟨‹_›, rfl⟩
  · exact .inr ⟨‹_›, rfl⟩

theorem execSkp_cases {x : Reg} {s t : State} (h : execSkp x s = .next t) :
    (s.keyOf x = none ∧ t = s.raise .keyIndex (some (encode (.skp x))) (s.getV x).toNat) ∨
    ∃ k, s.keyOf x = some k ∧ t = s.skipIf (s.getKey k) := by
  unfold execSkp at h
  split at h <;> cases h
  · exact .inl ⟨‹_›, rfl⟩
  · exact .inr ⟨_, ‹_›, rfl⟩

theorem execSknp_cases {x : Reg} {s t : State} (h : execSknp x s = .next t) :
    (s.keyOf x = none ∧ t = s.raise .keyIndex (some (encode (.sknp x))) (s.getV x).toNat) ∨
    ∃ k, s.keyOf x = some k ∧ t = s.skipIf (!s.getKey k) := by
  unfold execSknp at h
  split at h <;> cases h
  · exact .inl ⟨‹_›, rfl⟩
  · exact .inr ⟨_, ‹_›, rfl⟩

theorem execLdVxK_cases {x : Reg} {s t : State} (h : execLdVxK x s = .next t) :
    (∃ k, s.highestKey = some k ∧ t = (s.setV x (u8 k.val)).adv 2) ∨ (s.highestKey = none ∧ t = s) := by
  unfold execLdVxK at h
  split at h <;> cases h
  · exact .inl ⟨_, ‹_›, rfl⟩
  · exact .inr ⟨‹_›, rfl⟩

theorem execDrw_cases {x y : Reg} {n : Rows} {s t : State} (h : execDrw x y n s = .next t) :
    (∃ kind info, s.spriteFault (s.getV x).toNat (s.getV y).toNat n.val = some (kind, info) ∧
      t = s.raise kind (some (encode (.drw x y n))) info) ∨
    (s.spriteFault (s.getV x).toNat (s.getV y).toNat n.val = none ∧
      ∃ d c, xorPixels (s.spritePixels (s.getV x).toNat (s.getV y).toNat n.val) s.Disp false = (d, c) ∧
        t = (((s.setDisp d).setV VF (flagByte c)).requestRedraw).adv 2) := by
  unfold execDrw execDrwWith at h
  simp only [State.coordinate_normative] at h
  split at h <;> cases h
  · exact .inl ⟨_, _, ‹_›, rfl⟩
  · exact .inr ⟨‹_›, _, _, rfl, rfl⟩

theorem execLdB_cases {x : Reg} {s t : State} (h : execLdB x s = .next t) :
    (∃ a, firstOutside (s.atI 0) 3 = some a ∧ t = s.raise .writeBounds (some (encode (.ldB x))) a) ∨
    (firstOutside (s.atI 0) 3 = none ∧ t = (s.memWriteBlock (s.atI 0) (bcdDigits (s.getV x))).adv 2) := by
  unfold execLdB at h
  split at h <;> cases h
  · exact .inl ⟨_, ‹_›, rfl⟩
  · exact .inr ⟨‹_›, rfl⟩

theorem execLdIVx_cases {x : Reg} {s t : State} (h : execLdIVx x s = .next t) :
    (∃ a, firstOutside (s.atI 0) (x.val + 1) = some a ∧ t = s.raise .writeBounds (some (encode (.ldIVx x))) a) ∨
    (firstOutside (s.atI 0) (x.val + 1) = none ∧
      t = ((s.memWriteBlock (s.atI 0) (s.blockV x)).setI (s.atI (x.val + 1))).adv 2) := by
  unfold execLdIVx at h
  split at h <;> cases h
  · exact .inl ⟨_, ‹_›, rfl⟩
  · exact .inr ⟨‹_›, rfl⟩

theorem execLdVxI_cases {x : Reg} {s t : State} (h : execLdVxI x s = .next t) :
    (∃ a, firstOutside (s.atI 0) (x.val + 1) = some a ∧ t = s.raise .readBounds (some (encode (.ldVxI x))) a) ∨
    (firstOutside (s.atI 0) (x.val + 1) = none ∧
      t = ((s.setBlockV x fun k => s.memRead (s.atI k)).setI (s.atI (x.val + 1))).adv 2) := by
  unfold execLdVxI at h
  split at h <;> cases h
  · exact .inl ⟨_, ‹_›, rfl⟩
  · exact .inr ⟨‹_›, rfl⟩

/-! ## What an update leaves alone -/

@[simp] theorem agree_refl (s : State) (f : Field) : agree s s f := by
  cases f with
  | mem => exact fun _ => rfl
  | _ => rfl

section
variable {s t : State} {f : Field}

@[simp] theorem agree_setV {x : Reg} {b : Byte} (hf : f ≠ .V) : agree s (t.setV x b) f ↔ agree s t f := by
  cases f with
  | V => exact absurd rfl hf
  | _ => rfl

@[simp] theorem agree_setBlockV {x : Reg} {g : Nat → Byte} (hf : f ≠ .V) :
    agree s (t.setBlockV x g) f ↔ agree s t f := by
  cases f with
  | V => exact absurd rfl hf
  | _ => simp [agree]

@[simp] theorem agree_setI {v : Nat} (hf : f ≠ .I) : agree s (t.setI v) f ↔ agree s t f := by
  cases f with
  | I => exact absurd rfl hf
  | _ => rfl

@[simp] theorem agree_setPc {v : Nat} (hf : f ≠ .pc) : agree s (t.setPc v) f ↔ agree s t f := by
  cases f with
  | pc => exact absurd rfl hf
  | _ => rfl

@[simp] theorem agree_adv {k : Nat} (hf : f ≠ .pc) : agree s (t.adv k) f ↔ agree s t f := agree_setPc hf

@[simp] theorem agree_skipIf {c : Bool} (hf : f ≠ .pc) : agree s (t.skipIf c) f ↔ agree s t f := by
  cases c <;> exact agree_adv hf

@[simp] theorem agree_setDT {b : Byte} (hf : f ≠ .DT) : agree s (t.setDT b) f ↔ agree s t f := by
  cases f with
  | DT => exact absurd rfl hf
  | _ => rfl

@[simp] theorem agree_setST {b : Byte} (hf : f ≠ .ST) : agree s (t.setST b) f ↔ agree s t f := by
  cases f with
  | ST => exact absurd rfl hf
  | _ => rfl

@[simp] theorem agree_setDisp {d : Display} (hf : f ≠ .Disp) : agree s (t.setDisp d) f ↔ agree s t f := by
  cases f with
  | Disp => exact absurd rfl hf
  | _ => rfl

@[simp] theorem agree_requestRedraw (hf : f ≠ .redraw) : agree s t.requestRedraw f ↔ agree s t f := by
  cases f with
  | redraw => exact absurd rfl hf
  | _ => rfl

@[simp] theorem agree_requestBeep (hf : f ≠ .beep) : agree s t.requestBeep f ↔ agree s t f := by
  cases f with
  | beep => exact absurd rfl hf
  | _ => rfl

@[simp] theorem agree_setOpcode {w : Word} (hf : f ≠ .opcode) : agree s (t.setOpcode w) f ↔ agree s t f := by
  cases f with
  | opcode => exact absurd rfl hf
  | _ => rfl

@[simp] theorem agree_noteUnknown {w : Word} (hu : f ≠ .unknown) (hm : f ≠ .refusalMark) :
    agree s (t.noteUnknown w) f ↔ agree s t f := by
  cases f with
  | unknown => exact absurd rfl hu
  | refusalMark => exact absurd rfl hm
  | _ => rfl

@[simp] theorem agree_spendDraw (hf : f ≠ .drawCount) : agree s t.spendDraw f ↔ agree s t f := by
  cases f with
  | drawCount => exact absurd rfl hf
  | _ => rfl

@[simp] theorem agree_push {v : Word} {h : t.sp.val < 16} (hS : f ≠ .Stack) (hp : f ≠ .sp) :
    agree s (t.push v h) f ↔ agree s t f := by
  cases f with
  | Stack => exact absurd rfl hS
  | sp => exact absurd rfl hp
  | _ => rfl

@[simp] theorem agree_pop (hf : f ≠ .sp) : agree s t.pop f ↔ agree s t f := by
  cases f with
  | sp => exact absurd rfl hf
  | _ => rfl

@[simp] theorem agree_memWriteBlock {a : Nat} {bs : List Byte} (hf : f ≠ .mem) :
    agree s (t.memWriteBlock a bs) f ↔ agree s t f := by
  cases f with
  | mem => exact absurd rfl hf
  | _ => rfl

@[simp] theorem agree_raise {k : FaultKind} {w : Option Word} {n : Nat} (hf : f ≠ .fault) :
    agree s (t.raise k w n) f ↔ agree s t f := by
  cases f with
  | fault => exact absurd rfl hf
  | _ => rfl

@[simp] theorem agree_tick (hD : f ≠ .DT) (hS : f ≠ .ST) (hb : f ≠ .beep) : agree s t.tick f ↔ agree s t f := by
  unfold State.tick State.tickSound State.tickDelay
  split_ifs <;> simp [hD, hS, hb]

end

/-! ## The frames of the 34 instructions -/

/-- A field the rule does not name is left alone: a meaning is a chain of updates, each of a field the rule names. -/
theorem exec_agree {i : Instr} {s t : State} (h : exec i s = .next t) {f : Field} (hf : f ∉ fieldsWritten i) :
    agree s t f := by
  cases i <;>
    simp only [fieldsWritten, List.mem_cons, List.not_mem_nil, or_false, not_or] at hf
  case ret => rcases execRet_cases h with ⟨-, rfl⟩ | ⟨-, rfl⟩ <;> simp [hf]
  case call => rcases execCall_cases h with ⟨-, rfl⟩ | ⟨-, rfl⟩ <;> simp [hf]
  case skp => rcases execSkp_cases h with ⟨-, rfl⟩ | ⟨_, -, rfl⟩ <;> simp [hf]
  case sknp => rcases execSknp_cases h with ⟨-, rfl⟩ | ⟨_, -, rfl⟩ <;> simp [hf]
  case ldVxK => rcases execLdVxK_cases h with ⟨_, -, rfl⟩ | ⟨-, rfl⟩ <;> simp [hf]
  case drw => rcases execDrw_cases h with ⟨_, _, -, rfl⟩ | ⟨-, _, _, -, rfl⟩ <;> simp [hf]
  case ldB => rcases execLdB_cases h with ⟨_, -, rfl⟩ | ⟨-, rfl⟩ <;> simp [hf]
  case ldIVx => rcases execLdIVx_cases h with ⟨_, -, rfl⟩ | ⟨-, rfl⟩ <;> simp [hf]
  case ldVxI => rcases execLdVxI_cases h with ⟨_, -, rfl⟩ | ⟨-, rfl⟩ <;> simp [hf]
  -- The other arms are one chain of updates each.
  all_goals cases h; simp [hf]

/-- A register the rule does not name is left alone. -/
theorem exec_regsExcept {i : Instr} {s t : State} (h : exec i s = .next t) : regsExcept (regsWritten i) s t := by
  intro r hr
  by_cases hV : .V ∈ fieldsWritten i
  · cases i <;> simp only [fieldsWritten, List.mem_cons, List.not_mem_nil, or_false, or_true, or_self,
      reduceCtorEq] at hV <;>
      simp only [regsWritten, List.mem_cons, List.not_mem_nil, or_false, not_or] at hr
    case drw => rcases execDrw_cases h with ⟨_, _, -, rfl⟩ | ⟨-, _, _, -, rfl⟩ <;> simp [hr]
    case ldVxK => rcases execLdVxK_cases h with ⟨_, -, rfl⟩ | ⟨-, rfl⟩ <;> simp [hr]
    case ldVxI =>
      rcases execLdVxI_cases h with ⟨_, -, rfl⟩ | ⟨-, rfl⟩
      · simp
      · simpa using fun hle => absurd hle (by simpa using hr)
    all_goals cases h; simp [hr]
  · have hkept : t.V = s.V := exec_agree h hV
    simp [State.getV, hkept]

/-! ## Which instructions write a field -/

theorem writes_mem_iff {i : Instr} : .mem ∈ fieldsWritten i ↔ (∃ x, i = .ldB x) ∨ ∃ x, i = .ldIVx x := by
  cases i <;> simp [fieldsWritten]

theorem writes_I_iff {i : Instr} : .I ∈ fieldsWritten i ↔
    (∃ nnn, i = .ldI nnn) ∨ (∃ x, i = .addI x) ∨ (∃ x, i = .ldF x) ∨ (∃ x, i = .ldIVx x) ∨ ∃ x, i = .ldVxI x := by
  cases i <;> simp [fieldsWritten]

theorem writes_Stack_iff {i : Instr} : .Stack ∈ fieldsWritten i ↔ ∃ nnn, i = .call nnn := by
  cases i <;> simp [fieldsWritten]

theorem writes_sp_iff {i : Instr} : .sp ∈ fieldsWritten i ↔ i = .ret ∨ ∃ nnn, i = .call nnn := by
  cases i <;> simp [fieldsWritten]

theorem writes_Disp_iff {i : Instr} : .Disp ∈ fieldsWritten i ↔ i = .cls ∨ ∃ x y n, i = .drw x y n := by
  cases i <;> simp [fieldsWritten]

theorem writes_redraw_iff {i : Instr} : .redraw ∈ fieldsWritten i ↔ i = .cls ∨ ∃ x y n, i = .drw x y n := by
  cases i <;> simp [fieldsWritten]

theorem writes_drawCount_iff {i : Instr} : .drawCount ∈ fieldsWritten i ↔ ∃ x nn, i = .rnd x nn := by
  cases i <;> simp [fieldsWritten]

/-- The fields no instruction writes: the host's keys, and what only the cycle around the arm records. -/
theorem not_mem_fieldsWritten {f : Field} (hf : f ∈ [.Key, .opcode, .beep, .unknown, .refusalMark]) (i : Instr) :
    f ∉ fieldsWritten i := by
  simp only [List.mem_cons, List.not_mem_nil, or_false] at hf
  rcases hf with rfl | rfl | rfl | rfl | rfl <;> cases i <;> simp [fieldsWritten]

/-- Only the bytes of the block at `I` that the rule stores can change. -/
theorem exec_memExcept {i : Instr} {s t : State} (h : exec i s = .next t) :
    memExcept s.I.toNat (bytesStored i) s t := by
  intro a ha
  by_cases hm : .mem ∈ fieldsWritten i
  · rcases writes_mem_iff.mp hm with ⟨x, rfl⟩ | ⟨x, rfl⟩
    · rcases execLdB_cases h with ⟨_, -, rfl⟩ | ⟨-, rfl⟩
      · rfl
      · exact Memory.read_writeBlock_other _ _ _ _ ha
    · rcases execLdIVx_cases h with ⟨_, -, rfl⟩ | ⟨-, rfl⟩
      · rfl
      · exact Memory.read_writeBlock_other _ _ _ _ (by simpa [State.atI, bytesStored] using ha)
  · exact exec_agree h hm a

/-- Settles O47: the frame of the fields, that of the registers and that of memory. -/
theorem instructionsWriteOnlyWhatTheirRuleNames : Obligations.InstructionsWriteOnlyWhatTheirRuleNames :=
  fun _ _ _ h => ⟨fun _ => exec_agree h, exec_regsExcept h, exec_memExcept h⟩

@[simp] theorem State.skipIf_fault (s : State) (c : Bool) : (s.skipIf c).fault = s.fault := by cases c <;> rfl

/-- An instruction leaves `fault` alone, or it raises on the state it was given, with its own word (R99, R181). -/
theorem exec_fault_cases {i : Instr} {s t : State} (h : exec i s = .next t) :
    t.fault = s.fault ∨ ∃ kind info, t = s.raise kind (some (encode i)) info := by
  by_cases hf : .fault ∈ fieldsWritten i
  · cases i <;> simp only [fieldsWritten, List.mem_cons, List.not_mem_nil, or_false, or_true, or_self, reduceCtorEq] at hf
    case ret => exact (execRet_cases h).elim (fun ⟨_, e⟩ => .inr ⟨_, _, e⟩) (fun ⟨_, e⟩ => .inl (by simp [e]))
    case call => exact (execCall_cases h).elim (fun ⟨_, e⟩ => .inl (by simp [e])) (fun ⟨_, e⟩ => .inr ⟨_, _, e⟩)
    case skp => exact (execSkp_cases h).elim (fun ⟨_, e⟩ => .inr ⟨_, _, e⟩) (fun ⟨_, _, e⟩ => .inl (by simp [e]))
    case sknp => exact (execSknp_cases h).elim (fun ⟨_, e⟩ => .inr ⟨_, _, e⟩) (fun ⟨_, _, e⟩ => .inl (by simp [e]))
    case drw =>
      exact (execDrw_cases h).elim (fun ⟨_, _, _, e⟩ => .inr ⟨_, _, e⟩) (fun ⟨_, _, _, _, e⟩ => .inl (by simp [e]))
    case ldB => exact (execLdB_cases h).elim (fun ⟨_, _, e⟩ => .inr ⟨_, _, e⟩) (fun ⟨_, e⟩ => .inl (by simp [e]))
    case ldIVx => exact (execLdIVx_cases h).elim (fun ⟨_, _, e⟩ => .inr ⟨_, _, e⟩) (fun ⟨_, e⟩ => .inl (by simp [e]))
    case ldVxI => exact (execLdVxI_cases h).elim (fun ⟨_, _, e⟩ => .inr ⟨_, _, e⟩) (fun ⟨_, e⟩ => .inl (by simp [e]))
  · exact .inl (exec_agree h hf)

/-- Only a CALL writes the stack, and what it writes is its own address (R112). -/
theorem exec_Stack_cases {i : Instr} {s t : State} (h : exec i s = .next t) :
    t.Stack = s.Stack ∨ ∃ hsp : s.sp.val < 16, t.Stack = s.Stack.set s.sp.val s.pc := by
  by_cases hf : .Stack ∈ fieldsWritten i
  · obtain ⟨nnn, rfl⟩ := writes_Stack_iff.mp hf
    rcases execCall_cases h with ⟨hsp, rfl⟩ | ⟨-, rfl⟩
    · exact .inr ⟨hsp, rfl⟩
    · exact .inl rfl
  · exact .inl (exec_agree h hf)

/-- No instruction clears `redraw` (R34). -/
theorem exec_redraw_cases {i : Instr} {s t : State} (h : exec i s = .next t) :
    t.redraw = s.redraw ∨ t.redraw = true := by
  by_cases hf : .redraw ∈ fieldsWritten i
  · rcases writes_redraw_iff.mp hf with rfl | ⟨x, y, n, rfl⟩
    · cases h
      exact .inr rfl
    · rcases execDrw_cases h with ⟨_, _, -, rfl⟩ | ⟨-, _, _, -, rfl⟩
      · exact .inl rfl
      · exact .inr rfl
  · exact .inl (exec_agree h hf)

/-- A word computed from a number is no larger than it. -/
theorem toNat_u16_le (v : Nat) : (u16 v).toNat ≤ v := by simp [u16, Nat.mod_le]

/-- Each of the five instructions that write `I` leaves at most 4096 in it: an address, a remainder modulo 4095, a digit's
font address, or the end of a block that passed its check. -/
theorem exec_indexBounded {i : Instr} {s t : State} (hI : indexBounded s) (h : exec i s = .next t) :
    indexBounded t := by
  by_cases hf : .I ∈ fieldsWritten i
  · rcases writes_I_iff.mp hf with ⟨nnn, rfl⟩ | ⟨x, rfl⟩ | ⟨x, rfl⟩ | ⟨x, rfl⟩ | ⟨x, rfl⟩
    · cases h
      have := nnn.isLt
      exact (toNat_u16_le _).trans (by omega)
    · cases h
      refine (toNat_u16_le _).trans ?_
      rw [reducedIndex_normative]
      omega
    · cases h
      have := (s.getV x).isLt
      exact (toNat_u16_le _).trans (by unfold fontAddress; omega)
    · rcases execLdIVx_cases h with ⟨_, -, rfl⟩ | ⟨hin, rfl⟩
      · exact hI
      · exact (toNat_u16_le _).trans (firstOutside_eq_none.mp hin)
    · rcases execLdVxI_cases h with ⟨_, -, rfl⟩ | ⟨hin, rfl⟩
      · exact hI
      · exact (toNat_u16_le _).trans (firstOutside_eq_none.mp hin)
  · have hkept : t.I = s.I := exec_agree h hf
    rwa [indexBounded, hkept]

/-- A skip advances by 2 or by 4. -/
theorem State.skipIf_pc_cases (s : State) (c : Bool) :
    (s.skipIf c).pc = u16 (s.pc.toNat + 2) ∨ (s.skipIf c).pc = u16 (s.pc.toNat + 4) := by
  cases c
  · exact .inl rfl
  · exact .inr rfl

end Sys2Proof.Machine
end

section
/-! SUPPORT. What one cycle can do: nothing, the fetch fault, or the arm of the word at `pc` and the end of the cycle; and
the fields it leaves alone. -/

namespace Sys2Proof.Machine

/-! ## The step -/

theorem step_of_faulted {s : State} (h : s.fault ≠ none) : step s = .next s := by
  simp [step, Option.isSome_iff_ne_none, h]

theorem step_of_unfetchable {s : State} (hs : s.fault = none) (hpc : 4094 < s.pc.toNat) :
    step s = .next (fetchFault s) := by
  simp [step, hs, fetch_eq_none.mpr hpc]

theorem step_of_fetchable {s : State} (h : fetchable s) :
    step s = finishCycle s.wordAtPc (execWord s.wordAtPc s) := by
  obtain ⟨hs, hpc⟩ := h
  simp [step, hs, fetch_eq_some.mpr ⟨hpc, rfl⟩]

theorem execWord_of_ok {w : Word} {i : Instr} (h : decode w = .ok i) (s : State) : execWord w s = exec i s := by
  simp [execWord, h]

theorem execWord_of_error {w : Word} {r : Unrecognized} (h : decode w = .error r) (s : State) :
    execWord w s = .next (s.noteUnknown w) := by
  simp [execWord, h, execUnrecognized]

theorem execWord_cases {w : Word} {s t : State} (h : execWord w s = .next t) :
    (∃ i, decode w = .ok i ∧ exec i s = .next t) ∨ (∃ r, decode w = .error r ∧ t = s.noteUnknown w) := by
  cases hd : decode w with
  | ok i => exact .inl ⟨i, rfl, execWord_of_ok hd s ▸ h⟩
  | error r =>
    rw [execWord_of_error hd] at h
    cases h
    exact .inr ⟨r, rfl, rfl⟩

/-- The end of a cycle answers a next state only after an arm that did. -/
theorem finishCycle_eq_next {w : Word} {o : Host.Outcome State Fault Refusal} {t : State}
    (h : finishCycle w o = .next t) : ∃ u, o = .next u ∧ t = endCycle w u := by
  cases o <;> cases h
  exact ⟨_, rfl, rfl⟩

/-- The three things a cycle can do: nothing on a faulted core (R98), the fetch fault (R92), or the arm of the word at `pc`
and the end of the cycle. -/
theorem step_cases {s t : State} (h : step s = .next t) :
    (s.fault ≠ none ∧ t = s) ∨
    (s.fault = none ∧ 4094 < s.pc.toNat ∧ t = fetchFault s) ∨
    (fetchable s ∧ ∃ u, execWord s.wordAtPc s = .next u ∧ t = endCycle s.wordAtPc u) := by
  by_cases hs : s.fault = none
  · by_cases hpc : s.pc.toNat ≤ 4094
    · rw [step_of_fetchable ⟨hs, hpc⟩] at h
      exact .inr (.inr ⟨⟨hs, hpc⟩, finishCycle_eq_next h⟩)
    · rw [step_of_unfetchable hs (by omega)] at h
      cases h
      exact .inr (.inl ⟨hs, by omega, rfl⟩)
  · rw [step_of_faulted hs] at h
    cases h
    exact .inl ⟨hs, rfl⟩

/-- A cycle that ends with no fault fetched a word. -/
theorem fetchable_of_step {s t : State} (h : step s = .next t) (ht : t.fault = none) : fetchable s := by
  rcases step_cases h with ⟨hf, rfl⟩ | ⟨-, -, rfl⟩ | ⟨hs, -⟩
  · exact absurd ht hf
  · simp [fetchFault] at ht
  · exact hs

/-! ## The frame of a cycle -/

/-- The fields a cycle writes around its arm, whatever the word (R91, R92, R96). -/
def cycleFields : List Field := [.opcode, .DT, .ST, .beep, .fault]

/-- The fields the arm of a word writes: an instruction's, or those of the UNRECOGNIZED arm (R97). -/
def wordFields (w : Word) : List Field :=
  match decode w with
  | .ok i => fieldsWritten i
  | .error _ => [.unknown, .refusalMark]

theorem wordFields_of_ok {w : Word} {i : Instr} (h : decode w = .ok i) : wordFields w = fieldsWritten i := by
  simp [wordFields, h]

theorem wordFields_of_error {w : Word} {r : Unrecognized} (h : decode w = .error r) :
    wordFields w = [.unknown, .refusalMark] := by
  simp [wordFields, h]

/-- But for the two fields of the UNRECOGNIZED arm, what a word writes is what its instruction writes. -/
theorem writes_of_mem_wordFields {w : Word} {f : Field} (hf : f ∈ wordFields w)
    (hu : f ∉ [.unknown, .refusalMark]) : ∃ i, decode w = .ok i ∧ f ∈ fieldsWritten i := by
  cases hd : decode w with
  | ok i => exact ⟨i, rfl, wordFields_of_ok hd ▸ hf⟩
  | error r => exact absurd (wordFields_of_error hd ▸ hf) hu

theorem execWord_agree {w : Word} {s t : State} (h : execWord w s = .next t) {f : Field} (hf : f ∉ wordFields w) :
    agree s t f := by
  rcases execWord_cases h with ⟨i, hd, hi⟩ | ⟨r, hd, rfl⟩
  · exact exec_agree hi (wordFields_of_ok hd ▸ hf)
  · simp only [wordFields_of_error hd, List.mem_cons, List.not_mem_nil, or_false, not_or] at hf
    simp [hf]

theorem endCycle_agree (w : Word) (t : State) {f : Field} (hf : f ∉ cycleFields) : agree t (endCycle w t) f := by
  simp only [cycleFields, List.mem_cons, List.not_mem_nil, or_false, not_or] at hf
  unfold endCycle
  split <;> simp [hf]

theorem fetchFault_agree (s : State) {f : Field} (hf : f ∉ cycleFields) : agree s (fetchFault s) f :=
  (agree_raise fun e => hf (by simp [e, cycleFields])).mpr (agree_refl s f)

/-- A cycle with no arm (a faulted core, a fetch fault) leaves all but `cycleFields` alone; any other leaves them as its arm
left them. -/
theorem step_agree_cases {s t : State} (h : step s = .next t) :
    (∀ f ∉ cycleFields, agree s t f) ∨
    (fetchable s ∧ ∃ u, execWord s.wordAtPc s = .next u ∧ t.fault = u.fault ∧ ∀ f ∉ cycleFields, agree u t f) := by
  rcases step_cases h with ⟨-, rfl⟩ | ⟨-, -, rfl⟩ | ⟨hs, u, hu, rfl⟩
  · exact .inl fun f _ => agree_refl _ f
  · exact .inl fun f hf => fetchFault_agree s hf
  · exact .inr ⟨hs, u, hu, endCycle_fault _ u, fun f hf => endCycle_agree _ u hf⟩

theorem agree_trans {s t u : State} {f : Field} (h : agree s t f) (h' : agree t u f) : agree s u f := by
  cases f with
  | mem => exact fun a => (h' a).trans (h a)
  | _ => exact Eq.trans h' h

/-- The frame of a cycle. -/
theorem step_agree {s t : State} (h : step s = .next t) {f : Field} (hc : f ∉ cycleFields)
    (hw : f ∉ wordFields s.wordAtPc) : agree s t f := by
  rcases step_agree_cases h with hkept | ⟨-, u, hu, -, hkept⟩
  · exact hkept f hc
  · exact agree_trans (execWord_agree hu hw) (hkept f hc)

end Sys2Proof.Machine
end

section
/-! SUPPORT. The bounds that every cycle keeps, where it leaves `pc`, and the proofs of `Obligations.IndexStaysBounded`,
`Obligations.ProgramCounterMovesInFourWays` and `Obligations.TargetsStayBounded`. -/

namespace Sys2Proof.Machine

/-! ## `I` -/

theorem execWord_indexBounded {w : Word} {s t : State} (hI : indexBounded s) (h : execWord w s = .next t) :
    indexBounded t := by
  rcases execWord_cases h with ⟨i, -, hi⟩ | ⟨r, -, rfl⟩
  · exact exec_indexBounded hI hi
  · exact hI

/-- Settles O50: every arm keeps the bound, and the rest of a cycle does not write `I`. -/
theorem indexStaysBounded : Obligations.IndexStaysBounded := by
  intro s t hI h
  rcases step_agree_cases h with hkept | ⟨-, u, hu, -, hkept⟩
  · have e : t.I = s.I := hkept .I (by decide)
    rwa [indexBounded, e]
  · have e : t.I = u.I := hkept .I (by decide)
    rw [indexBounded, e]
    exact execWord_indexBounded hI hu

/-! ## `pc` -/

/-- Settles O18: an instruction that branches either faults, which the hypothesis excludes, or moves `pc` as its rule says;
the rest of a cycle does not write `pc`. -/
theorem programCounterMovesInFourWays : Obligations.ProgramCounterMovesInFourWays := by
  intro s t hs h ht
  rcases step_cases h with ⟨hf, -⟩ | ⟨-, -, rfl⟩ | ⟨-, u, hu, rfl⟩
  · exact absurd hs hf
  · simp [fetchFault] at ht
  have hpc : (endCycle s.wordAtPc u).pc = u.pc := endCycle_agree _ u (f := .pc) (by decide)
  rw [endCycle_fault] at ht
  rw [hpc]
  rcases execWord_cases hu with ⟨i, hd, hi⟩ | ⟨r, hd, rfl⟩
  swap
  · rw [hd]
    rfl
  rw [hd]
  cases i
  case ret =>
    rcases execRet_cases hi with ⟨-, rfl⟩ | ⟨-, rfl⟩
    · simp at ht
    · rfl
  case call =>
    rcases execCall_cases hi with ⟨-, rfl⟩ | ⟨-, rfl⟩
    · rfl
    · simp at ht
  case seImm | sneImm | seReg | sneReg =>
    cases hi
    exact State.skipIf_pc_cases s _
  case skp =>
    rcases execSkp_cases hi with ⟨-, rfl⟩ | ⟨k, -, rfl⟩
    · simp at ht
    · exact State.skipIf_pc_cases s _
  case sknp =>
    rcases execSknp_cases hi with ⟨-, rfl⟩ | ⟨k, -, rfl⟩
    · simp at ht
    · exact State.skipIf_pc_cases s _
  case ldVxK =>
    rcases execLdVxK_cases hi with ⟨k, hk, rfl⟩ | ⟨hk, rfl⟩
    · exact (if_pos ⟨k, (State.highestKey_eq_some hk).1⟩).symm
    · exact (if_neg (by simp [State.highestKey_eq_none.mp hk])).symm
  case drw =>
    rcases execDrw_cases hi with ⟨_, _, -, rfl⟩ | ⟨-, _, _, -, rfl⟩
    · simp at ht
    · rfl
  case ldB =>
    rcases execLdB_cases hi with ⟨_, -, rfl⟩ | ⟨-, rfl⟩
    · simp at ht
    · rfl
  case ldIVx =>
    rcases execLdIVx_cases hi with ⟨_, -, rfl⟩ | ⟨-, rfl⟩
    · simp at ht
    · rfl
  case ldVxI =>
    rcases execLdVxI_cases hi with ⟨_, -, rfl⟩ | ⟨-, rfl⟩
    · simp at ht
    · rfl
  all_goals
    cases hi
    rfl

/-- A cycle that ends faulted leaves `pc` where it was (R99). -/
theorem step_pc_of_fault {s t : State} (h : step s = .next t) (ht : t.fault ≠ none) : t.pc = s.pc := by
  rcases step_agree_cases h with hkept | ⟨⟨hs, -⟩, u, hu, hf, hkept⟩
  · exact hkept .pc (by decide)
  · have e : t.pc = u.pc := hkept .pc (by decide)
    rw [e]
    rcases execWord_cases hu with ⟨i, -, hi⟩ | ⟨r, -, rfl⟩
    · rcases exec_fault_cases hi with hf' | ⟨_, _, rfl⟩
      · exact absurd (hf.trans (hf'.trans hs)) ht
      · rfl
    · rfl

/-- Of the places `pc` can move to, BNNN reaches the highest, 0xFF + 0xFFF. -/
theorem step_pc_le {s t : State} (hb : targetsBounded s) (h : step s = .next t) : t.pc.toNat ≤ 0x10FE := by
  obtain ⟨hS, hpc⟩ := hb
  by_cases ht : t.fault = none
  swap
  · rwa [step_pc_of_fault h ht]
  obtain ⟨hs, hfetch⟩ := fetchable_of_step h ht
  have hle {v : Nat} (e : t.pc = u16 v) (hv : v ≤ 0x10FE) : t.pc.toNat ≤ 0x10FE := e ▸ (toNat_u16_le v).trans hv
  have hmove := programCounterMovesInFourWays s t hs h ht
  split at hmove
  case h_1 nnn _ | h_2 nnn _ => exact hle hmove (by have := nnn.isLt; omega)
  case h_3 nnn _ => exact hle hmove (by have := nnn.isLt; have := (s.getV 0).isLt; omega)
  case h_4 =>
    have hret : (s.Stack[s.sp.val - 1]).toNat ≤ 4094 := hS ⟨s.sp.val - 1, by omega⟩
    exact hle hmove (by omega)
  case h_11 =>
    split at hmove
    · exact hle hmove (by omega)
    · rwa [hmove]
  case h_12 => exact hle hmove (by omega)
  case h_13 => rwa [hmove]
  all_goals exact hmove.elim (hle · (by omega)) (hle · (by omega))

/-! ## The stack -/

/-- A cycle leaves the stack alone, or stores in it the address it fetched at. -/
theorem step_Stack_cases {s t : State} (h : step s = .next t) :
    t.Stack = s.Stack ∨ ∃ hsp : s.sp.val < 16, s.pc.toNat ≤ 4094 ∧ t.Stack = s.Stack.set s.sp.val s.pc := by
  rcases step_agree_cases h with hkept | ⟨⟨-, hpc⟩, u, hu, -, hkept⟩
  · exact .inl (hkept .Stack (by decide))
  · have e : t.Stack = u.Stack := hkept .Stack (by decide)
    rw [e]
    rcases execWord_cases hu with ⟨i, -, hi⟩ | ⟨r, -, rfl⟩
    · exact (exec_Stack_cases hi).imp_right fun ⟨hsp, e⟩ => ⟨hsp, hpc, e⟩
    · exact .inl rfl

theorem step_Stack_le {s t : State} (hS : ∀ k : Fin 16, s.Stack[k.val].toNat ≤ 4094) (h : step s = .next t)
    (k : Fin 16) : t.Stack[k.val].toNat ≤ 4094 := by
  rcases step_Stack_cases h with e | ⟨hsp, hpc, e⟩
  · simpa [e] using hS k
  · simp only [e, Vector.getElem_set]
    split
    · exact hpc
    · exact hS k

/-- Settles O51: a CALL pushes the address it was fetched at, so a RET goes no further than 4096, and every other move of
`pc` starts at a fetchable address or goes to a computed target. -/
theorem targetsStayBounded : Obligations.TargetsStayBounded :=
  fun _ _ hb h => ⟨step_Stack_le hb.1 h, step_pc_le hb h⟩

end Sys2Proof.Machine
end

section
/-! SUPPORT. A word that the decoder rejects is in the set of R76 under whose name it rejects it. -/

namespace Sys2Proof

theorem decode0_error {w : Word} {r : Unrecognized} (h : decode0 w = .error r) :
    r = .family0 ∧ w.toNat ≠ 0x00E0 ∧ w.toNat ≠ 0x00EE := by
  unfold decode0 at h
  split_ifs at h with hE0 hEE
  cases h
  exact ⟨rfl, fun e => hE0 (BitVec.eq_of_toNat_eq e), fun e => hEE (BitVec.eq_of_toNat_eq e)⟩

theorem decodeN0_error {w : Word} {i : Instr} {r r' : Unrecognized} (h : decodeN0 w i r = .error r') :
    r' = r ∧ w.toNat % 16 ≠ 0 := by
  unfold decodeN0 at h
  split_ifs at h with hn
  cases h
  exact ⟨rfl, slice_n w ▸ hn⟩

theorem decode8_error {w : Word} {r : Unrecognized} (h : decode8 w = .error r) :
    r = .family8 ∧ w.toNat % 16 ∈ [0x8, 0x9, 0xA, 0xB, 0xC, 0xD, 0xF] := by
  unfold decode8 at h
  split at h <;> cases h
  rw [slice_n] at *
  have hn : w.toNat % 16 < 16 := Nat.mod_lt _ (by decide)
  refine ⟨rfl, ?_⟩
  interval_cases w.toNat % 16 <;> simp_all

theorem decodeE_error {w : Word} {r : Unrecognized} (h : decodeE w = .error r) :
    r = .familyE ∧ w.toNat % 256 ≠ 0x9E ∧ w.toNat % 256 ≠ 0xA1 := by
  unfold decodeE at h
  split at h <;> cases h
  rw [slice_nn] at *
  exact ⟨rfl, by omega, by omega⟩

theorem decodeF_error {w : Word} {r : Unrecognized} (h : decodeF w = .error r) :
    r = .familyF ∧ w.toNat % 256 ∉ [0x07, 0x0A, 0x15, 0x18, 0x1E, 0x29, 0x33, 0x55, 0x65] := by
  unfold decodeF at h
  split at h <;> cases h
  rw [slice_nn] at *
  simp_all

/-- A word the decoder rejects is in the set of R76 under whose name it rejects it. -/
theorem holds_of_decode_error {w : Word} {r : Unrecognized} (h : decode w = .error r) : r.holds w = true := by
  have hlt := op_lt w
  interval_cases hop : w.toNat / 4096
  · obtain ⟨rfl, hw⟩ := decode0_error (decode_0 hop ▸ h)
    simp [Unrecognized.holds, hop, hw]
  · simp [decode_1 hop] at h
  · simp [decode_2 hop] at h
  · simp [decode_3 hop] at h
  · simp [decode_4 hop] at h
  · obtain ⟨rfl, hw⟩ := decodeN0_error (decode_5 hop ▸ h)
    simp [Unrecognized.holds, hop, hw]
  · simp [decode_6 hop] at h
  · simp [decode_7 hop] at h
  · obtain ⟨rfl, hw⟩ := decode8_error (decode_8 hop ▸ h)
    simpa [Unrecognized.holds, hop] using hw
  · obtain ⟨rfl, hw⟩ := decodeN0_error (decode_9 hop ▸ h)
    simp [Unrecognized.holds, hop, hw]
  · simp [decode_A hop] at h
  · simp [decode_B hop] at h
  · simp [decode_C hop] at h
  · simp [decode_D hop] at h
  · obtain ⟨rfl, hw⟩ := decodeE_error (decode_E hop ▸ h)
    simp [Unrecognized.holds, hop, hw]
  · obtain ⟨rfl, hw⟩ := decodeF_error (decode_F hop ▸ h)
    simpa [Unrecognized.holds, hop] using hw

/-- A word in none of the sets of R76 decodes. -/
theorem decode_eq_ok_of_wellFormed {w : Word} (h : wellFormed w = true) : ∃ i, decode w = .ok i := by
  cases hd : decode w with
  | ok i => exact ⟨i, rfl⟩
  | error r =>
    have hset := holds_of_decode_error hd
    cases r <;> simp [wellFormed, hset] at h

end Sys2Proof
end

section
/-! SUPPORT. Which cycles write which part of the state: the proof of `Obligations.OnlyTheNamedInstructionsWriteEachPart`. -/

namespace Sys2Proof.Machine

/-- No cycle clears `redraw` (R34). -/
theorem step_redraw_cases {s t : State} (h : step s = .next t) : t.redraw = s.redraw ∨ t.redraw = true := by
  rcases step_agree_cases h with hkept | ⟨-, u, hu, -, hkept⟩
  · exact .inl (hkept .redraw (by decide))
  · have e : t.redraw = u.redraw := hkept .redraw (by decide)
    rw [e]
    rcases execWord_cases hu with ⟨i, -, hi⟩ | ⟨r, -, rfl⟩
    · exact exec_redraw_cases hi
    · exact .inl rfl

/-- The arm of a word does not write `beep`. -/
theorem execWord_beep {w : Word} {s t : State} (h : execWord w s = .next t) : t.beep = s.beep :=
  execWord_agree h (f := .beep) fun hf =>
    have ⟨i, _, hi⟩ := writes_of_mem_wordFields hf (by decide)
    not_mem_fieldsWritten (by decide) i hi

/-- A cycle leaves `beep` alone, or its tick sets it on finding `ST` at 1 (R35, R96). -/
theorem step_beep_cases {s t : State} (h : step s = .next t) :
    t.beep = s.beep ∨ (fetchable s ∧ t.fault = none ∧
      ∃ u, execWord s.wordAtPc s = .next u ∧ u.ST = 1 ∧ t.beep = true) := by
  rcases step_cases h with ⟨-, rfl⟩ | ⟨-, -, rfl⟩ | ⟨hs, u, hu, rfl⟩
  · exact .inl rfl
  · exact .inl rfl
  · by_cases hf : u.fault = none
    · have htick : (endCycle s.wordAtPc u).beep = (s.beep || u.ST == 1) := by
        rw [endCycle_of_no_fault hf, State.tick_beep, ← execWord_beep hu]
        rfl
      by_cases hST : (u.ST == 1) = true
      · exact .inr ⟨hs, by simp [hf], u, hu, eq_of_beq hST, by rw [htick, hST, Bool.or_true]⟩
      · exact .inl (by simp only [htick, hST, Bool.or_false])
    · rw [endCycle_of_fault hf]
      exact .inl (execWord_beep hu)

/-- What no instruction writes, a cycle on a recognized word leaves alone. -/
theorem step_agree_of_wellFormed {s t : State} (h : step s = .next t) (hwf : wellFormed s.wordAtPc = true) {f : Field}
    (hf : f ∈ [.Key, .unknown, .refusalMark]) : agree s t f := by
  obtain ⟨i, hd⟩ := decode_eq_ok_of_wellFormed hwf
  simp only [List.mem_cons, List.not_mem_nil, or_false] at hf
  refine step_agree h ?_ (wordFields_of_ok hd ▸ not_mem_fieldsWritten ?_ i)
  · rcases hf with rfl | rfl | rfl <;> decide
  · rcases hf with rfl | rfl | rfl <;> decide

/-- Settles O48: each part of the state by the frame of a cycle and the list of the instructions that write it; `redraw` and
`beep` by the cases of what a cycle does to them. -/
theorem onlyTheNamedInstructionsWriteEachPart : Obligations.OnlyTheNamedInstructionsWriteEachPart := by
  intro s t h
  have kept (f : Field) (hc : f ∉ cycleFields) (hu : f ∉ [.unknown, .refusalMark])
      (hi : ∀ i, decode s.wordAtPc = .ok i → f ∉ fieldsWritten i) : agree s t f :=
    step_agree h hc fun hw =>
      have ⟨i, hd, hf⟩ := writes_of_mem_wordFields hw hu
      hi i hd hf
  refine ⟨fun hmem => kept .mem (by decide) (by decide) fun i hd hf => ?mem,
    fun hcls hdrw => kept .Disp (by decide) (by decide) fun i hd hf => ?Disp,
    fun hret hcall => ⟨kept .Stack (by decide) (by decide) fun i hd hf => ?Stack,
      kept .sp (by decide) (by decide) fun i hd hf => ?sp⟩,
    kept .Key (by decide) (by decide) fun i _ => not_mem_fieldsWritten (by decide) i,
    fun hset => (step_redraw_cases h).elim (·.trans hset) id,
    fun hcls hdrw => kept .redraw (by decide) (by decide) fun i hd hf => ?redraw,
    fun hset => (step_beep_cases h).elim (·.trans hset) fun ⟨_, _, _, _, _, hb⟩ => hb,
    fun hne => ?beep,
    fun hwf => ⟨step_agree_of_wellFormed h hwf (f := .unknown) (by decide),
      step_agree_of_wellFormed h hwf (f := .refusalMark) (by decide)⟩,
    fun hrnd => kept .drawCount (by decide) (by decide) fun i hd hf => ?drawCount⟩
  case mem =>
    rcases writes_mem_iff.mp hf with ⟨x, rfl⟩ | ⟨x, rfl⟩
    · exact (hmem x).1 hd
    · exact (hmem x).2 hd
  case Disp =>
    rcases writes_Disp_iff.mp hf with rfl | ⟨x, y, n, rfl⟩
    · exact hcls hd
    · exact hdrw x y n hd
  case Stack =>
    obtain ⟨nnn, rfl⟩ := writes_Stack_iff.mp hf
    exact hcall nnn hd
  case sp =>
    rcases writes_sp_iff.mp hf with rfl | ⟨nnn, rfl⟩
    · exact hret hd
    · exact hcall nnn hd
  case redraw =>
    rcases writes_redraw_iff.mp hf with rfl | ⟨x, y, n, rfl⟩
    · exact hcls hd
    · exact hdrw x y n hd
  case beep =>
    obtain ⟨hs, hf, u, hu, hST, -⟩ := (step_beep_cases h).resolve_left hne
    exact ⟨hs, hf, u, hu, by rw [hST]; rfl⟩
  case drawCount =>
    obtain ⟨x, nn, rfl⟩ := writes_drawCount_iff.mp hf
    exact hrnd x nn hd

end Sys2Proof.Machine
end

section
/-! SUPPORT. A cycle on a state with other values in the output fields answers the same state but for those fields: the
proof of `Obligations.OutputsDoNotInfluenceTheCore`. -/

namespace Sys2Proof.Machine

/-- The values of the five output fields. -/
structure Outputs where
  opcode : Word
  redraw : Bool
  beep : Bool
  unknown : Option UnknownRecord
  refusalMark : Bool

/-- The state with its output fields replaced. -/
def State.withOutputs (s : State) (p : Outputs) : State :=
  { s with opcode := p.opcode, redraw := p.redraw, beep := p.beep, unknown := p.unknown, refusalMark := p.refusalMark }

section
variable (s : State) (p : Outputs)

@[simp] theorem State.keyOf_withOutputs (x : Reg) : (s.withOutputs p).keyOf x = s.keyOf x := rfl
@[simp] theorem State.highestKey_withOutputs : (s.withOutputs p).highestKey = s.highestKey := rfl
@[simp] theorem State.atI_withOutputs (k : Nat) : (s.withOutputs p).atI k = s.atI k := rfl
@[simp] theorem State.getV_withOutputs (x : Reg) : (s.withOutputs p).getV x = s.getV x := rfl
@[simp] theorem State.DT_withOutputs : (s.withOutputs p).DT = s.DT := rfl
@[simp] theorem State.ST_withOutputs : (s.withOutputs p).ST = s.ST := rfl
@[simp] theorem State.wordAtPc_withOutputs : (s.withOutputs p).wordAtPc = s.wordAtPc := rfl
@[simp] theorem State.spriteFault_withOutputs (x y n : Nat) :
    (s.withOutputs p).spriteFault x y n = s.spriteFault x y n := rfl
@[simp] theorem State.spritePixels_withOutputs (x y n : Nat) :
    (s.withOutputs p).spritePixels x y n = s.spritePixels x y n := rfl
@[simp] theorem State.Disp_withOutputs : (s.withOutputs p).Disp = s.Disp := rfl

end

theorem State.skipIf_withOutputs (s : State) (p : Outputs) (c : Bool) :
    (s.withOutputs p).skipIf c = (s.skipIf c).withOutputs p := by cases c <;> rfl

/-- An arm branches on what the output fields do not hold, so it takes the same branch. -/
theorem exec_withOutputs {i : Instr} {s t : State} (h : exec i s = .next t) (p : Outputs) :
    ∃ q, exec i (s.withOutputs p) = .next (t.withOutputs q) := by
  cases i
  case cls => cases h; exact ⟨{ p with redraw := true }, rfl⟩
  case ret =>
    rcases execRet_cases h with ⟨hsp, rfl⟩ | ⟨hsp, rfl⟩
    · exact ⟨p, if_pos hsp⟩
    · exact ⟨p, if_neg hsp⟩
  case call =>
    rcases execCall_cases h with ⟨hsp, rfl⟩ | ⟨hsp, rfl⟩
    · exact ⟨p, dif_pos hsp⟩
    · exact ⟨p, dif_neg hsp⟩
  case seImm | sneImm | seReg | sneReg => cases h; exact ⟨p, congrArg _ (State.skipIf_withOutputs s p _)⟩
  case skp =>
    rcases execSkp_cases h with ⟨hk, rfl⟩ | ⟨k, hk, rfl⟩
    · exact ⟨p, by simp only [exec, execSkp, State.keyOf_withOutputs, hk]; rfl⟩
    · exact ⟨p, by simp only [exec, execSkp, State.keyOf_withOutputs, hk, State.skipIf_withOutputs]; rfl⟩
  case sknp =>
    rcases execSknp_cases h with ⟨hk, rfl⟩ | ⟨k, hk, rfl⟩
    · exact ⟨p, by simp only [exec, execSknp, State.keyOf_withOutputs, hk]; rfl⟩
    · exact ⟨p, by simp only [exec, execSknp, State.keyOf_withOutputs, hk, State.skipIf_withOutputs]; rfl⟩
  case ldVxK =>
    rcases execLdVxK_cases h with ⟨k, hk, rfl⟩ | ⟨hk, rfl⟩
    · exact ⟨p, by simp only [exec, execLdVxK, State.highestKey_withOutputs, hk]; rfl⟩
    · exact ⟨p, by simp only [exec, execLdVxK, State.highestKey_withOutputs, hk]⟩
  case drw =>
    rcases execDrw_cases h with ⟨_, _, hc, rfl⟩ | ⟨hc, _, _, hd, rfl⟩
    · exact ⟨p, by
        simp only [exec, execDrw, execDrwWith, State.coordinate_normative, State.getV_withOutputs,
          State.spriteFault_withOutputs, hc]
        rfl⟩
    · exact ⟨{ p with redraw := true }, by
        simp only [exec, execDrw, execDrwWith, State.coordinate_normative, State.getV_withOutputs,
          State.spriteFault_withOutputs, hc, State.spritePixels_withOutputs, State.Disp_withOutputs, hd]
        rfl⟩
  case ldB =>
    rcases execLdB_cases h with ⟨_, ha, rfl⟩ | ⟨ha, rfl⟩ <;>
      exact ⟨p, by simp only [exec, execLdB, State.atI_withOutputs, ha]; rfl⟩
  case ldIVx =>
    rcases execLdIVx_cases h with ⟨_, ha, rfl⟩ | ⟨ha, rfl⟩ <;>
      exact ⟨p, by simp only [exec, execLdIVx, State.atI_withOutputs, ha]; rfl⟩
  case ldVxI =>
    rcases execLdVxI_cases h with ⟨_, ha, rfl⟩ | ⟨ha, rfl⟩ <;>
      exact ⟨p, by simp only [exec, execLdVxI, State.atI_withOutputs, ha]; rfl⟩
  all_goals cases h; exact ⟨p, rfl⟩

theorem execWord_withOutputs {w : Word} {s t : State} (h : execWord w s = .next t) (p : Outputs) :
    ∃ q, execWord w (s.withOutputs p) = .next (t.withOutputs q) := by
  rcases execWord_cases h with ⟨i, hd, hi⟩ | ⟨r, hd, rfl⟩
  · rw [execWord_of_ok hd]
    exact exec_withOutputs hi p
  · rw [execWord_of_error hd]
    exact ⟨{ p with unknown := some ⟨s.pc, w⟩, refusalMark := true }, rfl⟩

theorem State.tickDelay_withOutputs (s : State) (p : Outputs) :
    (s.withOutputs p).tickDelay = s.tickDelay.withOutputs p := by
  unfold State.tickDelay
  rw [apply_ite (State.withOutputs · p)]
  rfl

theorem State.tickSound_withOutputs (s : State) (p : Outputs) :
    ∃ q, (s.withOutputs p).tickSound = s.tickSound.withOutputs q := by
  unfold State.tickSound
  by_cases h0 : s.ST = 0
  · exact ⟨p, by simp only [State.ST_withOutputs, h0, if_true]⟩
  · by_cases h1 : s.ST = 1
    · exact ⟨{ p with beep := true }, by simp only [State.ST_withOutputs, h1, if_true]; rfl⟩
    · exact ⟨p, by simp only [State.ST_withOutputs, h0, h1, if_false]; rfl⟩

theorem endCycle_withOutputs (w : Word) (s : State) (p : Outputs) :
    ∃ q, endCycle w (s.withOutputs p) = (endCycle w s).withOutputs q := by
  by_cases hf : s.fault = none
  · rw [endCycle_of_no_fault hf, endCycle_of_no_fault (t := s.withOutputs p) hf]
    obtain ⟨q, hq⟩ := State.tickSound_withOutputs (s.setOpcode w).tickDelay { p with opcode := w }
    exact ⟨q, by rw [State.tick, State.tick, ← hq, ← State.tickDelay_withOutputs]; rfl⟩
  · rw [endCycle_of_fault hf, endCycle_of_fault (t := s.withOutputs p) hf]
    exact ⟨p, rfl⟩

theorem step_withOutputs {s t : State} (h : step s = .next t) (p : Outputs) :
    ∃ q, step (s.withOutputs p) = .next (t.withOutputs q) := by
  rcases step_cases h with ⟨hf, rfl⟩ | ⟨hs, hpc, rfl⟩ | ⟨hs, u, hu, rfl⟩
  · exact ⟨p, step_of_faulted hf⟩
  · exact ⟨p, step_of_unfetchable (s := s.withOutputs p) hs hpc⟩
  · obtain ⟨q, hq⟩ := execWord_withOutputs hu p
    obtain ⟨q', hq'⟩ := endCycle_withOutputs s.wordAtPc u q
    refine ⟨q', ?_⟩
    rw [step_of_fetchable (s := s.withOutputs p) hs, State.wordAtPc_withOutputs, hq, ← hq']
    rfl

/-- Settles O54: the fetch, every arm and the end of a cycle commute with a replacement of the output fields, up to what they
write in those fields themselves. -/
theorem outputsDoNotInfluenceTheCore : Obligations.OutputsDoNotInfluenceTheCore := by
  intro s t o r b u m h
  obtain ⟨q, hq⟩ := step_withOutputs h ⟨o, r, b, u, m⟩
  exact ⟨q.opcode, q.redraw, q.beep, q.unknown, q.refusalMark, hq⟩

end Sys2Proof.Machine
end

section
/-! SUPPORT. The reset state: the proofs of `Obligations.ResetMeetsTheInvariants` and `Obligations.ResetValues`. -/

namespace Sys2Proof.Machine

/-- Settles O52: a font only touches memory, and writing it keeps the canonical form. -/
theorem resetMeetsTheInvariants : Obligations.ResetMeetsTheInvariants := by
  have hI : indexBounded State.reset := by decide
  have ht : targetsBounded State.reset := by decide
  exact ⟨⟨State.reset_mem_wf, hI, ht, rfl, rfl⟩, fun font => ⟨State.resetWith_mem_wf font, hI, ht, rfl, rfl⟩⟩

theorem State.memRead_reset (a : Nat) : State.reset.memRead a = initialByte a := rfl

/-- Settles O56: memory after reset lists no cell, so the 80 bytes are computed from the font table; the vectors are
constant. -/
theorem resetValues : Obligations.ResetValues := by
  refine ⟨by decide, fun a ha => ?_, ?_, rfl, rfl, ?_, rfl, rfl, rfl, pixel_clear, ?_, rfl, rfl, rfl, rfl, rfl⟩
  · rw [State.memRead_reset, initialByte, if_neg (by omega)]
  · intro r
    simp [State.getV, State.reset]
  · intro k
    simp [State.reset]
  · intro k
    simp [State.getKey, State.reset]

end Sys2Proof.Machine
end

section
/-! SUPPORT. What a store in range leaves in memory, and that the next fetch reads it: the proof of
`Obligations.StoreIsSeenByTheNextFetch`. -/

namespace Sys2Proof.Machine

/-! ## Memory after a store (R153, R154) -/

/-- After a block of writes that stays in memory, every address reads as overwritten by the block's bytes. -/
theorem State.memRead_memWriteBlock_overwritten {s : State} {base : Nat} {bs : List Byte} {f : Nat → Byte}
    (hin : base + bs.length ≤ 4096) (hf : ∀ k (hk : k < bs.length), bs[k] = f k) (a : Nat) :
    (s.memWriteBlock base bs).memRead a = overwritten s base bs.length f a := by
  unfold overwritten
  split
  case isTrue h =>
    obtain ⟨hle, hlt⟩ := h
    have hk : a - base < bs.length := by omega
    rw [State.memRead_memWriteBlock, Memory.read_writeBlock _ _ _ hin, if_pos hle, List.getElem?_eq_getElem hk,
      Option.getD_some, hf _ hk]
  case isFalse h => exact Memory.read_writeBlock_other _ _ _ _ h

theorem execLdB_of_inside {x : Reg} {s : State} (hin : s.I.toNat + 3 ≤ 4096) :
    execLdB x s = .next ((s.memWriteBlock s.I.toNat (bcdDigits (s.getV x))).adv 2) := by
  have hnone : firstOutside (s.atI 0) 3 = none := firstOutside_eq_none.mpr hin
  simp only [execLdB, hnone]
  rfl

theorem execLdIVx_of_inside {x : Reg} {s : State} (hin : s.I.toNat + (x.val + 1) ≤ 4096) :
    execLdIVx x s =
      .next (((s.memWriteBlock s.I.toNat (s.blockV x)).setI (s.I.toNat + (x.val + 1))).adv 2) := by
  have hnone : firstOutside (s.atI 0) (x.val + 1) = none := firstOutside_eq_none.mpr hin
  simp only [execLdIVx, hnone]
  rfl

/-- Digit `k` of FX33, hundreds first, is the quotient by a power of 10, modulo 10: a byte has three digits. -/
theorem getElem_bcdDigits (b : Byte) {k : Nat} (hk : k < (bcdDigits b).length) :
    (bcdDigits b)[k] = u8 (b.toNat / 10 ^ (2 - k) % 10) := by
  have hhundreds : b.toNat / 100 % 10 = b.toNat / 100 := by omega
  match k, hk with
  | 0, _ => simp [bcdDigits, hhundreds]
  | 1, _ => simp [bcdDigits]
  | 2, _ => simp [bcdDigits]

theorem bytesStored_pos_iff {i : Instr} : 0 < bytesStored i ↔ (∃ x, i = .ldB x) ∨ ∃ x, i = .ldIVx x := by
  cases i <;> simp [bytesStored]

/-- A storing instruction whose block is in memory takes no fault, goes on to the next word, and overwrites the block. -/
theorem exec_of_store_inside {i : Instr} {s : State} (hstore : 0 < bytesStored i)
    (hin : s.I.toNat + bytesStored i ≤ 4096) :
    ∃ t, exec i s = .next t ∧ t.fault = s.fault ∧ t.pc = u16 (s.pc.toNat + 2) ∧
      ∀ a, t.memRead a = overwritten s s.I.toNat (bytesStored i) (byteStored s i) a := by
  rcases bytesStored_pos_iff.mp hstore with ⟨x, rfl⟩ | ⟨x, rfl⟩
  · refine ⟨_, execLdB_of_inside hin, rfl, rfl, ?_⟩
    exact State.memRead_memWriteBlock_overwritten hin fun _ => getElem_bcdDigits _
  · refine ⟨_, execLdIVx_of_inside hin, rfl, rfl, fun a => ?_⟩
    have hlen : (s.blockV x).length = bytesStored (.ldIVx x) := s.length_blockV x
    rw [← hlen] at hin ⊢
    refine State.memRead_memWriteBlock_overwritten hin (fun k hk => ?_) a
    have hk16 : k < 16 := by have := s.length_blockV x; omega
    simp [byteStored, Fin.ofNat, Nat.mod_eq_of_lt hk16]

/-! ## The next fetch (R62, R227) -/

/-- A core that can fetch runs the word its memory holds at `pc` now, by whatever description of that memory. -/
theorem fetch_and_step_of_memRead {t : State} {mem : Nat → Byte} {p : Nat} (hfault : t.fault = none)
    (hpc : t.pc.toNat = p) (hp : p ≤ 4094) (hmem : ∀ a, t.memRead a = mem a) :
    ∃ w, w = composeWord (mem p) (mem (p + 1)) ∧ fetch t = some w ∧ step t = finishCycle w (execWord w t) := by
  subst hpc
  have hword : t.wordAtPc = composeWord (mem t.pc.toNat) (mem (t.pc.toNat + 1)) := by
    rw [State.wordAtPc, hmem, hmem]
  exact ⟨_, rfl, fetch_eq_some.mpr ⟨hp, hword⟩, hword ▸ step_of_fetchable ⟨hfault, hp⟩⟩

/-- Settles O38: a store overwrites its block, the end of its cycle leaves memory and `pc` alone, and the next fetch reads
that memory; a load is a block of writes at 512 that leaves `pc` and `fault` alone. -/
theorem storeIsSeenByTheNextFetch : Obligations.StoreIsSeenByTheNextFetch := by
  constructor
  · intro s i hs hpc hd hstore hin
    obtain ⟨u, hu, hfault, hupc, hmem⟩ := exec_of_store_inside hstore hin
    have hstep : step s = .next (endCycle s.wordAtPc u) := by
      rw [step_of_fetchable hs, execWord_of_ok hd, hu, finishCycle]
    have htfault : (endCycle s.wordAtPc u).fault = none := by rw [endCycle_fault, hfault, hs.1]
    have htpc : (endCycle s.wordAtPc u).pc.toNat = s.pc.toNat + 2 := by
      have hkept : (endCycle s.wordAtPc u).pc = u.pc := endCycle_agree _ u (f := .pc) (by decide)
      rw [hkept, hupc, BitVec.toNat_ofNat]
      omega
    have htmem (a : Nat) : (endCycle s.wordAtPc u).memRead a =
        overwritten s s.I.toNat (bytesStored i) (byteStored s i) a :=
      (endCycle_agree _ u (f := .mem) (by decide) a).trans (hmem a)
    obtain ⟨w, hw⟩ := fetch_and_step_of_memRead htfault htpc (by omega) htmem
    exact ⟨_, w, hstep, htfault, htpc, htmem, hw⟩
  · intro font bytes s hs hlen
    have hload : (hostAct font (.load bytes) s).1 = s.memWriteBlock 512 bytes := by simp [hostAct, hostLoad, hlen]
    have hmem : ∀ a, (s.memWriteBlock 512 bytes).memRead a =
        overwritten s 512 bytes.length (fun k => bytes.getD k 0) a :=
      State.memRead_memWriteBlock_overwritten (by omega) fun k hk => by simp [hk]
    obtain ⟨w, hw⟩ := fetch_and_step_of_memRead (t := s.memWriteBlock 512 bytes) hs.1 rfl hs.2 hmem
    exact ⟨_, w, hload, hmem, hw⟩

end Sys2Proof.Machine
end

section
/-! SUPPORT. The encoder and the decoder undo each other: the fields of a word written in a format of R72, the word put
together again from its fields, and the proofs of `Obligations.WrittenWordsDecode`, `Obligations.DecodeAfterEncode`,
`Obligations.EncodeAfterDecode`, `Obligations.DecodeRejectsTheSetsOfR76` and `Obligations.AssemblyRoundTrip`. -/

namespace Sys2Proof

/-! ## The fields of a word written in a format (R72) -/

section
variable {op : Nat} (hop : op < 16)
include hop

@[simp] theorem op_wordNNN (nnn : Addr12) : (wordNNN op nnn).toNat / 4096 = op := by
  have := nnn.isLt
  rw [toNat_wordNNN hop]; omega

@[simp] theorem fieldNNN_wordNNN (nnn : Addr12) : fieldNNN (wordNNN op nnn) = nnn := by
  have := nnn.isLt
  apply BitVec.eq_of_toNat_eq
  rw [toNat_fieldNNN, toNat_wordNNN hop]; omega

section
variable {nn : Nat} (hnn : nn < 256) (x : Reg)
include hnn

@[simp] theorem op_wordXNN : (wordXNN op x nn).toNat / 4096 = op := by
  have := x.isLt
  rw [toNat_wordXNN hop hnn]; omega

@[simp] theorem fieldX_wordXNN : fieldX (wordXNN op x nn) = x := by
  have := x.isLt
  apply Fin.ext
  rw [val_fieldX, toNat_wordXNN hop hnn]; omega

@[simp] theorem nn_wordXNN : (wordXNN op x nn).toNat % 256 = nn := by
  rw [toNat_wordXNN hop hnn]; omega

end

@[simp] theorem fieldNN_wordXNN (x : Reg) (nn : Byte) : fieldNN (wordXNN op x nn.toNat) = nn := by
  apply BitVec.eq_of_toNat_eq
  rw [toNat_fieldNN, nn_wordXNN hop nn.isLt]

section
variable {n : Nat} (hn : n < 16) (x y : Reg)
include hn

@[simp] theorem op_wordXYN : (wordXYN op x y n).toNat / 4096 = op := by
  have := x.isLt; have := y.isLt
  rw [toNat_wordXYN hop hn]; omega

@[simp] theorem fieldX_wordXYN : fieldX (wordXYN op x y n) = x := by
  have := x.isLt; have := y.isLt
  apply Fin.ext
  rw [val_fieldX, toNat_wordXYN hop hn]; omega

@[simp] theorem fieldY_wordXYN : fieldY (wordXYN op x y n) = y := by
  have := y.isLt
  apply Fin.ext
  rw [val_fieldY, toNat_wordXYN hop hn]; omega

@[simp] theorem n_wordXYN : (wordXYN op x y n).toNat % 16 = n := by
  rw [toNat_wordXYN hop hn]; omega

end

@[simp] theorem fieldN_wordXYN (x y : Reg) (n : Rows) : fieldN (wordXYN op x y n.val) = n := by
  apply Fin.ext
  rw [val_fieldN, n_wordXYN hop n.isLt]

end

/-! ## A word from its fields -/

section
variable {w : Word} {op : Nat} (hop : w.toNat / 4096 = op)
include hop

theorem wordNNN_of_fields : wordNNN op (fieldNNN w) = w := by
  rw [wordNNN, toNat_fieldNNN, ← hop, Nat.div_add_mod', u16_toNat]

theorem wordXNN_of_fields {nn : Nat} (hnn : w.toNat % 256 = nn) : wordXNN op (fieldX w) nn = w := by
  have hsum : op * 4096 + (fieldX w).val * 256 + nn = w.toNat := by rw [val_fieldX]; omega
  rw [wordXNN, hsum, u16_toNat]

theorem wordXYN_of_fields {n : Nat} (hn : w.toNat % 16 = n) : wordXYN op (fieldX w) (fieldY w) n = w := by
  have hsum : op * 4096 + (fieldX w).val * 256 + (fieldY w).val * 16 + n = w.toNat := by
    rw [val_fieldX, val_fieldY]; omega
  rw [wordXYN, hsum, u16_toNat]

end

/-! ## Decode after encode -/

theorem Byte.toNat_lt (b : Byte) : b.toNat < 256 := b.isLt

/-- Each format's word gives back the opcode that its family's decode dispatches on, and then every field. -/
theorem decode_encode (i : Instr) : decode (encode i) = .ok i := by
  cases i
  case cls | ret => rfl
  case jp | call | ldI | jpV0 => simp [encode, decode_1, decode_2, decode_A, decode_B]
  case seImm | sneImm | ldImm | addImm | rnd =>
    simp [encode, decode_3, decode_4, decode_6, decode_7, decode_C, Byte.toNat_lt]
  case seReg | sneReg => simp [encode, decode_5, decode_9, decodeN0, slice_n]
  case drw => simp [encode, decode_D]
  case skp | sknp => simp [encode, decode_E, decodeE, slice_nn]
  case ldVxDt | ldVxK | ldDtVx | ldStVx | addI | ldF | ldB | ldIVx | ldVxI => simp [encode, decode_F, decodeF, slice_nn]
  -- What is left is family 8.
  all_goals simp [encode, decode_8, decode8, slice_n]

/-- Settles O2: per format, the fields of the word that is written are the fields that are read back. -/
theorem decodeAfterEncode : Obligations.DecodeAfterEncode := decode_encode

/-! ## Encode after decode -/

theorem encode_of_decode0 {w : Word} {i : Instr} (h : decode0 w = .ok i) : encode i = w := by
  unfold decode0 at h
  split_ifs at h with hE0 hEE <;> cases h
  · exact hE0.symm
  · exact hEE.symm

/-- Families 5 and 9 accept only an N of 0. -/
theorem decodeN0_eq_ok {w : Word} {i j : Instr} {r : Unrecognized} (h : decodeN0 w j r = .ok i) :
    i = j ∧ w.toNat % 16 = 0 := by
  unfold decodeN0 at h
  split_ifs at h with hn
  cases h
  exact ⟨rfl, slice_n w ▸ hn⟩

theorem encode_of_decode8 {w : Word} {i : Instr} (hop : w.toNat / 4096 = 0x8) (h : decode8 w = .ok i) :
    encode i = w := by
  unfold decode8 at h
  split at h <;> cases h
  all_goals exact wordXYN_of_fields hop (slice_n w ▸ ‹slice w 3 0 = _›)

theorem encode_of_decodeE {w : Word} {i : Instr} (hop : w.toNat / 4096 = 0xE) (h : decodeE w = .ok i) :
    encode i = w := by
  unfold decodeE at h
  split at h <;> cases h
  all_goals exact wordXNN_of_fields hop (slice_nn w ▸ ‹slice w 7 0 = _›)

theorem encode_of_decodeF {w : Word} {i : Instr} (hop : w.toNat / 4096 = 0xF) (h : decodeF w = .ok i) :
    encode i = w := by
  unfold decodeF at h
  split at h <;> cases h
  all_goals exact wordXNN_of_fields hop (slice_nn w ▸ ‹slice w 7 0 = _›)

/-- The fields the decoder reads, with the digits it tests, are the whole word. -/
theorem encode_of_decode {w : Word} {i : Instr} (h : decode w = .ok i) : encode i = w := by
  have whole {j : Instr} (hd : decode w = .ok j) (hj : encode j = w) : encode i = w :=
    Except.ok.inj (hd.symm.trans h) ▸ hj
  have hlt := op_lt w
  interval_cases hop : w.toNat / 4096
  · exact encode_of_decode0 (decode_0 hop ▸ h)
  · exact whole (decode_1 hop) (wordNNN_of_fields hop)
  · exact whole (decode_2 hop) (wordNNN_of_fields hop)
  · exact whole (decode_3 hop) (wordXNN_of_fields hop (toNat_fieldNN w).symm)
  · exact whole (decode_4 hop) (wordXNN_of_fields hop (toNat_fieldNN w).symm)
  · obtain ⟨rfl, hn⟩ := decodeN0_eq_ok (decode_5 hop ▸ h)
    exact wordXYN_of_fields hop hn
  · exact whole (decode_6 hop) (wordXNN_of_fields hop (toNat_fieldNN w).symm)
  · exact whole (decode_7 hop) (wordXNN_of_fields hop (toNat_fieldNN w).symm)
  · exact encode_of_decode8 hop (decode_8 hop ▸ h)
  · obtain ⟨rfl, hn⟩ := decodeN0_eq_ok (decode_9 hop ▸ h)
    exact wordXYN_of_fields hop hn
  · exact whole (decode_A hop) (wordNNN_of_fields hop)
  · exact whole (decode_B hop) (wordNNN_of_fields hop)
  · exact whole (decode_C hop) (wordXNN_of_fields hop (toNat_fieldNN w).symm)
  · exact whole (decode_D hop) (wordXYN_of_fields hop (val_fieldN w).symm)
  · exact encode_of_decodeE hop (decode_E hop ▸ h)
  · exact encode_of_decodeF hop (decode_F hop ▸ h)

/-- Settles O3: per family, the word is put together again from the fields that were read. -/
theorem encodeAfterDecode : Obligations.EncodeAfterDecode := fun _ _ => encode_of_decode

/-! ## The rejected words (R76) -/

theorem decode0_eq_error {w : Word} (hE0 : w.toNat ≠ 0x00E0) (hEE : w.toNat ≠ 0x00EE) :
    decode0 w = .error .family0 := by
  have hne0 : w ≠ 0x00E0 := fun e => hE0 (congrArg BitVec.toNat e)
  have hneE : w ≠ 0x00EE := fun e => hEE (congrArg BitVec.toNat e)
  rw [decode0, if_neg hne0, if_neg hneE]

theorem decodeN0_eq_error {w : Word} (hn : w.toNat % 16 ≠ 0) (i : Instr) (r : Unrecognized) :
    decodeN0 w i r = .error r := by
  rw [decodeN0, if_neg (slice_n w ▸ hn)]

theorem decode8_eq_error {w : Word} (hn : w.toNat % 16 ∈ [0x8, 0x9, 0xA, 0xB, 0xC, 0xD, 0xF]) :
    decode8 w = .error .family8 := by
  simp only [List.mem_cons, List.not_mem_nil, or_false] at hn
  unfold decode8
  rw [slice_n]
  rcases hn with hn | hn | hn | hn | hn | hn | hn <;> rw [hn] <;> rfl

theorem decodeE_eq_error {w : Word} (h9E : w.toNat % 256 ≠ 0x9E) (hA1 : w.toNat % 256 ≠ 0xA1) :
    decodeE w = .error .familyE := by
  unfold decodeE
  rw [slice_nn]
  split
  · exact absurd ‹_› h9E
  · exact absurd ‹_› hA1
  · rfl

theorem decodeF_eq_error {w : Word}
    (hnn : w.toNat % 256 ∉ [0x07, 0x0A, 0x15, 0x18, 0x1E, 0x29, 0x33, 0x55, 0x65]) : decodeF w = .error .familyF := by
  unfold decodeF
  rw [slice_nn]
  split
  case h_10 => rfl
  all_goals exact absurd (by simp [‹w.toNat % 256 = _›]) hnn

/-- A word in a set of R76 is rejected under the set's name. -/
theorem decode_eq_error_of_holds {w : Word} {u : Unrecognized} (h : u.holds w = true) : decode w = .error u := by
  cases u <;> simp only [Unrecognized.holds, Bool.and_eq_true, beq_iff_eq, bne_iff_ne, List.contains_iff_mem,
    Bool.not_eq_true', ← Bool.not_eq_true] at h
  case family0 =>
    obtain ⟨⟨hop, hE0⟩, hEE⟩ := h
    exact (decode_0 hop).trans (decode0_eq_error hE0 hEE)
  case family5 =>
    obtain ⟨hop, hn⟩ := h
    exact (decode_5 hop).trans (decodeN0_eq_error hn _ _)
  case family8 =>
    obtain ⟨hop, hn⟩ := h
    exact (decode_8 hop).trans (decode8_eq_error hn)
  case family9 =>
    obtain ⟨hop, hn⟩ := h
    exact (decode_9 hop).trans (decodeN0_eq_error hn _ _)
  case familyE =>
    obtain ⟨⟨hop, h9E⟩, hA1⟩ := h
    exact (decode_E hop).trans (decodeE_eq_error h9E hA1)
  case familyF =>
    obtain ⟨hop, hnn⟩ := h
    exact (decode_F hop).trans (decodeF_eq_error hnn)

theorem decode_eq_error_iff (w : Word) (u : Unrecognized) : decode w = .error u ↔ u.holds w = true :=
  ⟨holds_of_decode_error, decode_eq_error_of_holds⟩

theorem wellFormed_iff (w : Word) : wellFormed w = true ↔ ∀ u : Unrecognized, u.holds w = false := by
  simp only [wellFormed, Bool.not_eq_true', Bool.or_eq_false_iff]
  constructor
  · rintro ⟨⟨⟨⟨⟨h0, h5⟩, h8⟩, h9⟩, hE⟩, hF⟩ (_ | _)
    all_goals assumption
  · intro h
    exact ⟨⟨⟨⟨⟨h _, h _⟩, h _⟩, h _⟩, h _⟩, h _⟩

/-- A word that decodes is in no set, as the decoder rejects the words of every set. -/
theorem wellFormed_of_decode {w : Word} {i : Instr} (h : decode w = .ok i) : wellFormed w = true := by
  refine (wellFormed_iff w).mpr fun u => Bool.eq_false_iff.mpr fun hu => ?_
  have herror := decode_eq_error_of_holds hu
  rw [h] at herror
  cases herror

/-- Settles O4: per set, the family's decode reaches its rejecting branch exactly on the words of the set. -/
theorem decodeRejectsTheSetsOfR76 : Obligations.DecodeRejectsTheSetsOfR76 :=
  ⟨decode_eq_error_iff, fun _ => ⟨fun ⟨_, h⟩ => wellFormed_of_decode h, decode_eq_ok_of_wellFormed⟩⟩

/-- Settles O1: 21 closed words, decoded. -/
theorem writtenWordsDecode : Obligations.WrittenWordsDecode := by
  unfold Obligations.WrittenWordsDecode
  decide

end Sys2Proof

namespace Sys2Proof.Machine

/-! ## Assembly (R79, R80) -/

/-- The parser reads every form of R79 back as the instruction it was written for. -/
theorem assemble_toAsm (i : Instr) : assemble (toAsm i) = some (encode i) := by
  cases i <;> rfl

theorem disassemble_of_ok {w : Word} {i : Instr} (h : decode w = .ok i) : disassemble w = toAsm i := by
  simp [disassemble, h]

theorem disassemble_of_error {w : Word} {u : Unrecognized} (h : decode w = .error u) : disassemble w = .word w := by
  simp [disassemble, h]

theorem assemble_disassemble (w : Word) : assemble (disassemble w) = some w := by
  cases h : decode w with
  | ok i => rw [disassemble_of_ok h, assemble_toAsm, encode_of_decode h]
  | error u => rw [disassemble_of_error h]; rfl

/-- Settles O5: the forms of R79 parse back, and a word that decodes is the word of its instruction. -/
theorem assemblyRoundTrip : Obligations.AssemblyRoundTrip :=
  ⟨assemble_toAsm, assemble_disassemble, fun _ => rfl, fun _ => ⟨rfl, rfl⟩⟩

end Sys2Proof.Machine
end

section
/-! SUPPORT. The cycle as a whole: its three forms, what it answers after a fault, and the proofs of
`Obligations.EveryStepAnswers`, `Obligations.FetchComposesHighByteFirst`, `Obligations.StepRunsTheDecodedInstruction`,
`Obligations.FetchPastMemoryFaults`, `Obligations.FaultedCoreIsInert` and `Obligations.FaultsArePrecise`. -/

namespace Sys2Proof.Machine

/-! ## Every cycle answers -/

/-- The arms that branch answer a next state in each branch; every other is one chain of updates. -/
theorem exec_answers (i : Instr) (s : State) : ∃ t, exec i s = .next t := by
  cases i
  case ret | call | skp | sknp | ldVxK | drw | ldB | ldIVx | ldVxI =>
    simp only [exec, execRet, execCall, execSkp, execSknp, execLdVxK, execDrw, execDrwWith, execLdB, execLdIVx, execLdVxI]
    split <;> exact ⟨_, rfl⟩
  all_goals exact ⟨_, rfl⟩

theorem execWord_answers (w : Word) (s : State) : ∃ t, execWord w s = .next t := by
  cases hd : decode w with
  | ok i => exact execWord_of_ok hd s ▸ exec_answers i s
  | error r => exact ⟨_, execWord_of_error hd s⟩

/-- The cycle of a core that can fetch, from what the arm of its word answers. -/
theorem step_of_execWord {s u : State} (hs : fetchable s) (hu : execWord s.wordAtPc s = .next u) :
    step s = .next (endCycle s.wordAtPc u) := by
  rw [step_of_fetchable hs, hu, finishCycle]

theorem step_answers (s : State) : ∃ t, step s = .next t := by
  by_cases hs : s.fault = none
  · by_cases hpc : s.pc.toNat ≤ 4094
    · obtain ⟨u, hu⟩ := execWord_answers s.wordAtPc s
      exact ⟨_, step_of_execWord ⟨hs, hpc⟩ hu⟩
    · exact ⟨_, step_of_unfetchable hs (by omega)⟩
  · exact ⟨s, step_of_faulted hs⟩

/-- Settles O8: a faulted core answers itself, a core that cannot fetch its fetch fault, and every arm a next state. -/
theorem everyStepAnswers : Obligations.EveryStepAnswers := ⟨step_answers, exec_answers⟩

/-! ## The form of a cycle (R90 to R94) -/

/-- A cycle that ends with no fault fetched a word, ran its arm with no fault, recorded the word and ticked. -/
theorem step_eq_next_of_no_fault {s t : State} (h : step s = .next t) (ht : t.fault = none) :
    fetchable s ∧ ∃ u, execWord s.wordAtPc s = .next u ∧ t = (u.setOpcode s.wordAtPc).tick := by
  have hs := fetchable_of_step h ht
  obtain ⟨u, hu, rfl⟩ := finishCycle_eq_next (step_of_fetchable hs ▸ h)
  exact ⟨hs, u, hu, endCycle_of_no_fault (endCycle_fault _ u ▸ ht)⟩

/-- Settles O6: the word fetched is that of the two bytes, and a cycle with no fault ends in its record and the tick, which
keeps `opcode`. -/
theorem fetchComposesHighByteFirst : Obligations.FetchComposesHighByteFirst := by
  intro s hs
  refine ⟨s.wordAtPc, toNat_composeWord _ _, step_of_fetchable hs, fun t h ht => ?_⟩
  obtain ⟨-, u, -, rfl⟩ := step_eq_next_of_no_fault h ht
  exact State.tick_opcode _

/-- Settles O7: the arm of a word that decodes is its instruction's, and the end of a cycle asks only whether it faulted. -/
theorem stepRunsTheDecodedInstruction : Obligations.StepRunsTheDecodedInstruction := by
  intro s i t hs hd hi
  rw [step_of_execWord hs ((execWord_of_ok hd s).trans hi)]
  split
  case isTrue ht => rw [endCycle_of_no_fault ht]
  case isFalse ht => rw [endCycle_of_fault ht]

/-! ## Faults (R92, R98, R99) -/

/-- Settles O9: the fetch fault is raised on the state at the start of the cycle. -/
theorem fetchPastMemoryFaults : Obligations.FetchPastMemoryFaults := by
  intro s hs hpc
  rw [step_of_unfetchable hs hpc, fetchFault_eq hpc]
  rfl

theorem hostLoad_fault (bytes : List Byte) (s : State) : (hostLoad bytes s).1.fault = s.fault := by
  unfold hostLoad
  split <;> rfl

theorem hostAct_fault {font : Font} {a : HostAction} (ha : a ≠ .reset) (s : State) :
    (hostAct font a s).1.fault = s.fault := by
  cases a with
  | reset => exact absurd rfl ha
  | load bytes => exact hostLoad_fault bytes s
  | _ => rfl

/-- Settles O10: a cycle of a faulted core ends before its fetch, and no host action but `reset` writes `fault`. -/
theorem faultedCoreIsInert : Obligations.FaultedCoreIsInert :=
  fun _ s hs => ⟨step_of_faulted hs, rfl, fun _ ha => hostAct_fault ha s⟩

/-- The arm of a word that takes a fault raises it on the state it was given (R99). -/
theorem execWord_of_fault {w : Word} {s t : State} (hs : s.fault = none) (h : execWord w s = .next t)
    (ht : t.fault ≠ none) : t = { s with fault := t.fault } := by
  rcases execWord_cases h with ⟨i, -, hi⟩ | ⟨r, -, rfl⟩
  · rcases exec_fault_cases hi with hkept | ⟨kind, info, rfl⟩
    · exact absurd (hkept.trans hs) ht
    · rfl
  · exact absurd hs ht

/-- Settles O12: the fetch fault and the fault of an arm are raised on the state at the start of the cycle, and the end of a
cycle that faulted keeps it. -/
theorem faultsArePrecise : Obligations.FaultsArePrecise := by
  intro s t hs h ht
  rcases step_cases h with ⟨hf, -⟩ | ⟨-, -, rfl⟩ | ⟨-, u, hu, rfl⟩
  · exact absurd hs hf
  · rfl
  · rw [endCycle_fault] at ht
    rw [endCycle_of_fault ht]
    exact execWord_of_fault hs hu ht

end Sys2Proof.Machine
end

section
/-! SUPPORT. The end of a cycle with no fault, and the cores that go on as they are (R101): the proofs of
`Obligations.TimersTickEveryCycle`, `Obligations.UnrecognizedWordStalls`, `Obligations.StalledCoreStaysStalled` and
`Obligations.SpinningAndWaitingCoresGoOn`. -/

namespace Sys2Proof.Machine

/-! ## The tick in numbers (R96) -/

theorem State.toNat_tick_DT (s : State) : s.tick.DT.toNat = s.DT.toNat - 1 := by
  rw [State.tick_DT]
  split <;> bv_omega

theorem State.toNat_tick_ST (s : State) : s.tick.ST.toNat = s.ST.toNat - 1 := by
  rw [State.tick_ST]
  split <;> bv_omega

theorem State.tick_beep_toNat (s : State) : s.tick.beep = (s.beep || decide (s.ST.toNat = 1)) := by
  rw [State.tick_beep]
  congr 1
  exact decide_eq_decide.mpr BitVec.toNat_inj.symm

theorem State.tick_of_timers_zero {s : State} (hDT : s.DT = 0) (hST : s.ST = 0) : s.tick = s := by
  have hdelay : s.tickDelay = s := if_pos hDT
  rw [State.tick, hdelay]
  exact if_pos hST

/-- The end of a cycle with no fault, besides the record of its word. -/
theorem tick_setOpcode_sameExcept (w : Word) (s : State) :
    sameExcept [.DT, .ST, .beep, .opcode] s (s.setOpcode w).tick := by
  intro f hf
  simp only [List.mem_cons, List.not_mem_nil, or_false, not_or] at hf
  simp [hf]

/-- Settles O14: a cycle that ends with no fault ran its arm, recorded the word and ticked. -/
theorem timersTickEveryCycle : Obligations.TimersTickEveryCycle := by
  intro s t h ht
  obtain ⟨-, u, hu, rfl⟩ := step_eq_next_of_no_fault h ht
  exact ⟨u, hu, State.toNat_tick_DT _, State.toNat_tick_ST _, State.tick_beep_toNat _, tick_setOpcode_sameExcept _ u⟩

/-! ## Frames -/

theorem sameExcept_refl (fs : List Field) (s : State) : sameExcept fs s s := fun f _ => agree_refl s f

theorem sameExcept_trans {fs : List Field} {s t u : State} (h : sameExcept fs s t) (h' : sameExcept fs t u) :
    sameExcept fs s u := fun f hf => agree_trans (h f hf) (h' f hf)

/-- A state with the same memory, `pc` and fault fetches the same word. -/
theorem fetchable_of_sameExcept {fs : List Field} {s t : State} (h : sameExcept fs s t)
    (hfs : ∀ f ∈ [Field.mem, .pc, .fault], f ∉ fs) (hs : fetchable s) : fetchable t ∧ t.wordAtPc = s.wordAtPc := by
  have hmem : ∀ a, t.memRead a = s.memRead a := h .mem (hfs _ (by decide))
  have hpc : t.pc = s.pc := h .pc (hfs _ (by decide))
  have hfault : t.fault = s.fault := h .fault (hfs _ (by decide))
  refine ⟨?_, ?_⟩
  · rwa [fetchable, hpc, hfault]
  · rw [State.wordAtPc, hpc, hmem, hmem, State.wordAtPc]

/-! ## Stalled cores (R97, R101) -/

theorem decode_of_not_wellFormed {w : Word} (h : wellFormed w = false) : ∃ r, decode w = .error r := by
  cases hd : decode w with
  | ok i => exact absurd (wellFormed_of_decode hd) (by simp [h])
  | error r => exact ⟨r, rfl⟩

theorem step_of_stalled {s : State} (h : stalled s) :
    step s = .next (((s.noteUnknown s.wordAtPc).setOpcode s.wordAtPc).tick) := by
  obtain ⟨hs, hwf⟩ := h
  obtain ⟨r, hd⟩ := decode_of_not_wellFormed hwf
  rw [step_of_execWord hs (execWord_of_error hd s), endCycle_of_no_fault (t := s.noteUnknown _) hs.1]

/-- The fields a cycle of a stalled core writes (R101), the model's refusal mark among them. -/
def stallFields : List Field := [.unknown, .refusalMark, .opcode, .DT, .ST, .beep]

theorem stallCycle_sameExcept (w : Word) (s : State) :
    sameExcept stallFields s (((s.noteUnknown w).setOpcode w).tick) := by
  intro f hf
  simp only [stallFields, List.mem_cons, List.not_mem_nil, or_false, not_or] at hf
  simp [hf]

theorem stalled_of_sameExcept {s t : State} (h : sameExcept stallFields s t) (hs : stalled s) : stalled t := by
  obtain ⟨hfetch, hwf⟩ := hs
  obtain ⟨hfetch', hword⟩ := fetchable_of_sameExcept h (by decide) hfetch
  exact ⟨hfetch', by rwa [hword]⟩

/-- Settles O15: an UNRECOGNIZED word is rejected by the decoder, its arm is `noteUnknown`, and none of it touches what the
next fetch reads. -/
theorem unrecognizedWordStalls : Obligations.UnrecognizedWordStalls := by
  intro s hs
  have hframe := stallCycle_sameExcept s.wordAtPc s
  exact ⟨_, step_of_stalled hs, stalled_of_sameExcept hframe hs, State.tick_unknown _, State.tick_refusalMark _,
    State.tick_opcode _, State.toNat_tick_DT _, State.toNat_tick_ST _, State.tick_beep_toNat _, hframe⟩

/-- The first of `k + 1` cycles of the machine is a `step`. -/
theorem run_succ {s t : State} (h : step s = .next t) (k : Nat) :
    Sys2Proof.core.run (k + 1) s = Sys2Proof.core.run k t := by
  have hcore : Sys2Proof.core.step s = .next t := h
  simp only [Host.Core.run, hcore]

/-- Settles O16, by induction on the number of cycles: the core stalls again after each. -/
theorem stalledCoreStaysStalled : Obligations.StalledCoreStaysStalled := by
  intro s k
  induction k generalizing s with
  | zero => exact fun hs => ⟨s, rfl, hs, sameExcept_refl _ s⟩
  | succ k ih =>
    intro hs
    have hframe := stallCycle_sameExcept s.wordAtPc s
    obtain ⟨t, hrun, ht, hrest⟩ := ih _ (stalled_of_sameExcept hframe hs)
    exact ⟨t, (run_succ (step_of_stalled hs) k).trans hrun, ht, sameExcept_trans hframe hrest⟩

/-! ## Spinning, quiescent and waiting cores (R101, R163) -/

/-- When its arm changes nothing, a cycle only records the word and ticks. -/
theorem step_of_idle {s : State} (hs : fetchable s) (h : execWord s.wordAtPc s = .next s) :
    step s = .next (s.setOpcode s.wordAtPc).tick := by
  rw [step_of_execWord hs h, endCycle_of_no_fault hs.1]

/-- The word of a spinning core is a jump to where it already is. -/
theorem execWord_of_spinning {s : State} (h : spinning s) : execWord s.wordAtPc s = .next s := by
  obtain ⟨-, hword, hpc⟩ := h
  have htarget : (fieldNNN s.wordAtPc).toNat = s.pc.toNat := by
    rw [toNat_fieldNNN]
    omega
  rw [execWord_of_ok (decode_1 (by omega)), exec, execJp, htarget, State.setPc, u16_toNat]

/-- FX0A with no key pressed changes nothing. -/
theorem execWord_of_waiting {s : State} (h : waiting s) : execWord s.wordAtPc s = .next s := by
  obtain ⟨-, ⟨x, hword⟩, hkeys⟩ := h
  rw [hword, execWord_of_ok (decode_encode _), exec, execLdVxK, State.highestKey_eq_none.mpr hkeys]

theorem spinning_of_sameExcept {s t : State} (h : sameExcept [.DT, .ST, .beep, .opcode] s t) (hs : spinning s) :
    spinning t := by
  obtain ⟨hfetch, hjump⟩ := hs
  obtain ⟨hfetch', hword⟩ := fetchable_of_sameExcept h (by decide) hfetch
  have hpc : t.pc = s.pc := h .pc (by decide)
  exact ⟨hfetch', by rwa [hword, hpc]⟩

theorem waiting_of_sameExcept {s t : State} (h : sameExcept [.DT, .ST, .beep, .opcode] s t) (hs : waiting s) :
    waiting t := by
  obtain ⟨hfetch, hkeyWait, hkeys⟩ := hs
  obtain ⟨hfetch', hword⟩ := fetchable_of_sameExcept h (by decide) hfetch
  have hKey : t.Key = s.Key := h .Key (by decide)
  exact ⟨hfetch', by rwa [hword], fun k => by rw [State.getKey, hKey]; exact hkeys k⟩

/-- Settles O17: the arms of the three leave the state as it was, so the cycle only records the word and ticks, and a tick of
two timers at 0 changes nothing. -/
theorem spinningAndWaitingCoresGoOn : Obligations.SpinningAndWaitingCoresGoOn := by
  refine ⟨fun s hs => ?_, fun s ⟨hs, hDT, hST⟩ => ?_, fun s hs => ?_⟩
  · have hframe := tick_setOpcode_sameExcept s.wordAtPc s
    exact ⟨_, step_of_idle hs.1 (execWord_of_spinning hs), spinning_of_sameExcept hframe hs, hframe⟩
  · rw [step_of_idle hs.1 (execWord_of_spinning hs), State.tick_of_timers_zero (s := s.setOpcode s.wordAtPc) hDT hST]
  · have hframe := tick_setOpcode_sameExcept s.wordAtPc s
    exact ⟨_, step_of_idle hs.1 (execWord_of_waiting hs), waiting_of_sameExcept hframe hs, State.toNat_tick_DT _,
      State.toNat_tick_ST _, hframe⟩

end Sys2Proof.Machine
end

section
/-! SUPPORT. A cycle on any word but CXNN commutes with a change of the count of draws: the proof of
`Obligations.OnlyRandomReadsTheDraw`. -/

namespace Sys2Proof.Machine

/-- The state with another count of draws (log 2). -/
def State.withDrawCount (s : State) (n : Nat) : State := { s with drawCount := n }

section
variable (s : State) (n : Nat)

@[simp] theorem State.getV_withDrawCount (x : Reg) : (s.withDrawCount n).getV x = s.getV x := rfl
@[simp] theorem State.keyOf_withDrawCount (x : Reg) : (s.withDrawCount n).keyOf x = s.keyOf x := rfl
@[simp] theorem State.highestKey_withDrawCount : (s.withDrawCount n).highestKey = s.highestKey := rfl
@[simp] theorem State.atI_withDrawCount (k : Nat) : (s.withDrawCount n).atI k = s.atI k := rfl
@[simp] theorem State.spriteFault_withDrawCount (x y r : Nat) :
    (s.withDrawCount n).spriteFault x y r = s.spriteFault x y r := rfl
@[simp] theorem State.wordAtPc_withDrawCount : (s.withDrawCount n).wordAtPc = s.wordAtPc := rfl

theorem State.skipIf_withDrawCount (c : Bool) :
    (s.withDrawCount n).skipIf c = (s.skipIf c).withDrawCount n := by cases c <;> rfl

theorem State.tickDelay_withDrawCount : (s.withDrawCount n).tickDelay = s.tickDelay.withDrawCount n := by
  unfold State.tickDelay
  rw [apply_ite (State.withDrawCount · n)]
  rfl

theorem State.tickSound_withDrawCount : (s.withDrawCount n).tickSound = s.tickSound.withDrawCount n := by
  unfold State.tickSound
  rw [apply_ite (State.withDrawCount · n), apply_ite (State.withDrawCount · n)]
  rfl

theorem endCycle_withDrawCount (w : Word) : endCycle w (s.withDrawCount n) = (endCycle w s).withDrawCount n := by
  have htick : ((s.setOpcode w).withDrawCount n).tick = (s.setOpcode w).tick.withDrawCount n := by
    rw [State.tick, State.tick, State.tickDelay_withDrawCount, State.tickSound_withDrawCount]
  unfold endCycle
  rw [apply_ite (State.withDrawCount · n), ← htick]
  rfl

end

/-- Change the count of draws in the next state of an outcome. -/
def outcomeWithDrawCount (n : Nat) : Host.Outcome State Fault Refusal → Host.Outcome State Fault Refusal
  | .next t => .next (t.withDrawCount n)
  | .fault r => .fault r
  | .refused r => .refused r

/-- An arm but CXNN's branches on what does not depend on the count of draws, and in each branch it passes the count on. -/
theorem exec_withDrawCount {i : Instr} (hi : ∀ x nn, i ≠ .rnd x nn) (s : State) (n : Nat) :
    exec i (s.withDrawCount n) = outcomeWithDrawCount n (exec i s) := by
  cases i
  case rnd x nn => exact absurd rfl (hi x nn)
  case ret =>
    rw [exec, exec, execRet, execRet, apply_ite (outcomeWithDrawCount n)]
    rfl
  case call nnn =>
    rw [exec, exec, execCall, execCall, apply_dite (outcomeWithDrawCount n)]
    rfl
  case seImm | sneImm | seReg | sneReg => exact congrArg _ (State.skipIf_withDrawCount s n _)
  case skp x =>
    simp only [exec, execSkp, State.keyOf_withDrawCount, State.skipIf_withDrawCount]
    cases s.keyOf x <;> rfl
  case sknp x =>
    simp only [exec, execSknp, State.keyOf_withDrawCount, State.skipIf_withDrawCount]
    cases s.keyOf x <;> rfl
  case ldVxK x =>
    simp only [exec, execLdVxK, State.highestKey_withDrawCount]
    cases s.highestKey <;> rfl
  case drw x y r =>
    simp only [exec, execDrw, execDrwWith, State.coordinate_normative, State.getV_withDrawCount,
      State.spriteFault_withDrawCount]
    cases s.spriteFault (s.getV x).toNat (s.getV y).toNat r.val <;> rfl
  case ldB x =>
    simp only [exec, execLdB, State.atI_withDrawCount]
    cases firstOutside (s.atI 0) 3 <;> rfl
  case ldIVx x =>
    simp only [exec, execLdIVx, State.atI_withDrawCount]
    cases firstOutside (s.atI 0) (x.val + 1) <;> rfl
  case ldVxI x =>
    simp only [exec, execLdVxI, State.atI_withDrawCount]
    cases firstOutside (s.atI 0) (x.val + 1) <;> rfl
  all_goals rfl

theorem execWord_withDrawCount {w : Word} (hw : ∀ x nn, decode w ≠ .ok (.rnd x nn)) (s : State) (n : Nat) :
    execWord w (s.withDrawCount n) = outcomeWithDrawCount n (execWord w s) := by
  cases hd : decode w with
  | ok i =>
    rw [execWord_of_ok hd, execWord_of_ok hd]
    exact exec_withDrawCount (fun x nn hi => hw x nn (hi ▸ hd)) s n
  | error r =>
    rw [execWord_of_error hd, execWord_of_error hd]
    rfl

/-- Settles O53: a faulted core and the fetch fault do not look at the count, and the arm and the end of a cycle pass it
on. -/
theorem onlyRandomReadsTheDraw : Obligations.OnlyRandomReadsTheDraw := by
  intro s t n hw h
  change step (s.withDrawCount n) = .next (t.withDrawCount n)
  rcases step_cases h with ⟨hf, rfl⟩ | ⟨hs, hpc, rfl⟩ | ⟨hs, u, hu, rfl⟩
  · exact step_of_faulted hf
  · exact step_of_unfetchable (s := s.withDrawCount n) hs hpc
  · have harm : execWord s.wordAtPc (s.withDrawCount n) = .next (u.withDrawCount n) := by
      rw [execWord_withDrawCount hw, hu, outcomeWithDrawCount]
    rw [step_of_execWord (s := s.withDrawCount n) hs harm, State.wordAtPc_withDrawCount, endCycle_withDrawCount]

end Sys2Proof.Machine
end

section
/-! SUPPORT. The control transfers: the targets as numbers, the outcome of CALL and of RET by the depth of the stack, a pop
after a push, and the proofs of `Obligations.JumpsSetPc`, `Obligations.CallPushesItsOwnAddress`,
`Obligations.ReturnGoesTwoPastTheTop` and `Obligations.ReturnUndoesCall`. -/

namespace Sys2Proof.Machine

/-! ## A jump -/

/-- A target below 2^16 is not reduced. -/
theorem State.toNat_setPc_pc (s : State) {v : Nat} (hv : v < 65536) : (s.setPc v).pc.toNat = v := by
  simpa [u16] using hv

theorem sameExcept_setPc (s : State) (v : Nat) : sameExcept [.pc] s (s.setPc v) := by
  intro f hf
  rw [List.mem_singleton] at hf
  simp [hf]

/-- Settles O19: a register and a 12-bit address add up to less than 2^16. -/
theorem jumpsSetPc : Obligations.JumpsSetPc := by
  refine ⟨fun nnn s => ⟨decode_encode (.jp nnn), _, rfl, ?_, sameExcept_setPc s _⟩,
    fun nnn s => ⟨decode_encode (.jpV0 nnn), _, rfl, ?_, sameExcept_setPc s _⟩⟩
  all_goals
    have := nnn.isLt
    have := (s.getV 0).isLt
    exact s.toNat_setPc_pc (by omega)

/-! ## The stack: a push, and a pop after it -/

/-- The entry at the depth before a push holds the pushed word, every other what it held. -/
theorem State.getElem_push_Stack (s : State) (v : Word) (h : s.sp.val < 16) (k : Fin 16) :
    (s.push v h).Stack[k.val] = if k.val = s.sp.val then v else s.Stack[k.val] := by
  simp only [State.push_Stack, Vector.getElem_set, eq_comm]

@[simp] theorem State.topOfStack_push (s : State) (v : Word) (h : s.sp.val < 16) : (s.push v h).topOfStack = v := by
  simp [State.topOfStack]

@[simp] theorem State.topOfStack_setPc (s : State) (v : Nat) : (s.setPc v).topOfStack = s.topOfStack := rfl

/-! ## CALL and RET by the depth of the stack (R110, R112) -/

theorem exec_call_of_room (nnn : Addr12) {s : State} (h : s.sp.val < 16) :
    exec (.call nnn) s = .next ((s.push s.pc h).setPc nnn.toNat) := dif_pos h

theorem exec_call_of_full (nnn : Addr12) {s : State} (h : s.sp.val = 16) :
    exec (.call nnn) s = .next (s.raise .stackOverflow (some (encode (.call nnn))) 16) := by
  rw [exec, execCall, dif_neg (by omega), h]

theorem exec_ret_of_live {s : State} (h : 0 < s.sp.val) :
    exec .ret s = .next (s.pop.setPc (s.topOfStack.toNat + 2)) := if_neg h.ne'

theorem exec_ret_of_empty {s : State} (h : s.sp.val = 0) :
    exec .ret s = .next (s.raise .stackUnderflow (some (encode .ret)) 0) := by
  rw [exec, execRet, if_pos h, h]

/-- Settles O20: a CALL with room is a push and a jump, one on a full stack a raise. -/
theorem callPushesItsOwnAddress : Obligations.CallPushesItsOwnAddress := by
  refine fun nnn s => ⟨decode_encode (.call nnn), fun h => ?_, exec_call_of_full nnn⟩
  refine ⟨_, exec_call_of_room nnn h, ?target, rfl, s.getElem_push_Stack s.pc h, ?frame⟩
  case target =>
    have := nnn.isLt
    exact State.toNat_setPc_pc _ (by omega)
  case frame =>
    intro f hf
    simp only [List.mem_cons, List.not_mem_nil, or_false, not_or] at hf
    simp [hf]

/-- Settles O21: a RET with a live entry is a pop and a jump, one on an empty stack a raise. -/
theorem returnGoesTwoPastTheTop : Obligations.ReturnGoesTwoPastTheTop := by
  refine ⟨decode_encode .ret, fun s => ⟨fun h => ⟨_, exec_ret_of_live h, rfl, rfl, ?frame⟩, exec_ret_of_empty⟩⟩
  case frame =>
    intro f hf
    simp only [List.mem_cons, List.not_mem_nil, or_false, not_or] at hf
    simp [hf]

/-- A RET right after a CALL with room undoes the push but for the dead entry, and goes to 2 past the CALL. -/
theorem exec_ret_after_call (nnn : Addr12) {s : State} (h : s.sp.val < 16) :
    exec .ret ((s.push s.pc h).setPc nnn.toNat) =
      .next (((s.push s.pc h).setPc nnn.toNat).pop.setPc (s.pc.toNat + 2)) := by
  have hlive : 0 < ((s.push s.pc h).setPc nnn.toNat).sp.val := Nat.succ_pos _
  simpa using exec_ret_of_live hlive

/-- Settles O22: the RET pops what the CALL pushed, which stands above every live entry. -/
theorem returnUndoesCall : Obligations.ReturnUndoesCall := by
  refine fun nnn s h => ⟨_, _, exec_call_of_room nnn h, exec_ret_after_call nnn h, rfl, rfl, fun k hk => ?live, ?frame⟩
  case live =>
    exact (s.getElem_push_Stack s.pc h k).trans (if_neg hk.ne)
  case frame =>
    intro f hf
    simp only [List.mem_cons, List.not_mem_nil, or_false, not_or] at hf
    by_cases hsp : f = .sp
    · subst hsp
      rfl
    · simp [hf, hsp]

end Sys2Proof.Machine
end

section
/-! SUPPORT. The conditional skips: the word of each, what a skip leaves, the outcome of SKP and of SKNP by the number in VX,
and the proofs of `Obligations.SkipOnKey`, `Obligations.SkipOnImmediate` and `Obligations.SkipOnRegister`. -/

namespace Sys2Proof.Machine

/-! ## The words (R79) -/

theorem decode_of_encode_eq {i : Instr} {w : Word} (h : encode i = w) : decode w = .ok i := h ▸ decode_encode i

theorem encode_seImm (x : Reg) (nn : Byte) : encode (.seImm x nn) = u16 (0x3000 + 256 * x.val + nn.toNat) :=
  congrArg u16 (by omega)

theorem encode_sneImm (x : Reg) (nn : Byte) : encode (.sneImm x nn) = u16 (0x4000 + 256 * x.val + nn.toNat) :=
  congrArg u16 (by omega)

theorem encode_seReg (x y : Reg) : encode (.seReg x y) = u16 (0x5000 + 256 * x.val + 16 * y.val) :=
  congrArg u16 (by omega)

theorem encode_sneReg (x y : Reg) : encode (.sneReg x y) = u16 (0x9000 + 256 * x.val + 16 * y.val) :=
  congrArg u16 (by omega)

theorem encode_skp (x : Reg) : encode (.skp x) = u16 (0xE09E + 256 * x.val) := congrArg u16 (by omega)

theorem encode_sknp (x : Reg) : encode (.sknp x) = u16 (0xE0A1 + 256 * x.val) := congrArg u16 (by omega)

/-! ## A skip -/

theorem sameExcept_skipIf (s : State) (c : Bool) : sameExcept [.pc] s (s.skipIf c) := by
  intro f hf
  rw [List.mem_singleton] at hf
  simp [hf]

section
variable {i : Instr} {s : State} {c : Bool} {p : Prop} [Decidable p] (hc : c = true ↔ p)
include hc

/-- An arm that skips on `c`, where `c` says `p`. -/
theorem exec_skips_when (h : exec i s = .next (s.skipIf c)) :
    ∃ t, exec i s = .next t ∧ t.pc = u16 (s.pc.toNat + if p then 4 else 2) ∧ sameExcept [.pc] s t := by
  refine ⟨_, h, ?_, sameExcept_skipIf s c⟩
  simp only [← hc]
  cases c <;> rfl

/-- An arm that skips on the negation of `c`. -/
theorem exec_skips_unless (h : exec i s = .next (s.skipIf !c)) :
    ∃ t, exec i s = .next t ∧ t.pc = u16 (s.pc.toNat + if p then 2 else 4) ∧ sameExcept [.pc] s t := by
  refine ⟨_, h, ?_, sameExcept_skipIf s !c⟩
  simp only [← hc]
  cases c <;> rfl

end

theorem Byte.beq_iff_toNat_eq {a b : Byte} : (a == b) = true ↔ a.toNat = b.toNat :=
  beq_iff_eq.trans BitVec.toNat_inj.symm

/-! ## SKP and SKNP by the number in VX (R124, R125) -/

section
variable {x : Reg} {s : State}

theorem exec_skp_of_key {k : Fin 16} (h : (s.getV x).toNat = k.val) :
    exec (.skp x) s = .next (s.skipIf (s.getKey k)) := by
  rw [exec, execSkp, State.keyOf_eq_some.mpr h]

theorem exec_sknp_of_key {k : Fin 16} (h : (s.getV x).toNat = k.val) :
    exec (.sknp x) s = .next (s.skipIf !s.getKey k) := by
  rw [exec, execSknp, State.keyOf_eq_some.mpr h]

theorem exec_skp_of_no_key (h : 15 < (s.getV x).toNat) :
    exec (.skp x) s = .next (s.raise .keyIndex (some (encode (.skp x))) (s.getV x).toNat) := by
  rw [exec, execSkp, State.keyOf_eq_none.mpr h]

theorem exec_sknp_of_no_key (h : 15 < (s.getV x).toNat) :
    exec (.sknp x) s = .next (s.raise .keyIndex (some (encode (.sknp x))) (s.getV x).toNat) := by
  rw [exec, execSknp, State.keyOf_eq_none.mpr h]

end

/-! ## The statements -/

/-- Settles O25: a number up to 15 names a key and the arm skips on it, one above names none and the arm raises with its own
word. -/
theorem skipOnKey : Obligations.SkipOnKey := by
  refine fun x s => ⟨decode_of_encode_eq (encode_skp x), decode_of_encode_eq (encode_sknp x), fun k hk => ⟨?_, ?_⟩,
    fun h => ⟨?_, ?_⟩⟩
  · exact exec_skips_when Iff.rfl (exec_skp_of_key hk)
  · exact exec_skips_unless Iff.rfl (exec_sknp_of_key hk)
  · rw [exec_skp_of_no_key h, encode_skp, State.raise]
  · rw [exec_sknp_of_no_key h, encode_sknp, State.raise]

/-- Settles O23: both arms skip on the comparison of the two bytes, or on its negation. -/
theorem skipOnImmediate : Obligations.SkipOnImmediate := fun x nn _ =>
  ⟨decode_of_encode_eq (encode_seImm x nn), decode_of_encode_eq (encode_sneImm x nn),
    exec_skips_when Byte.beq_iff_toNat_eq rfl, exec_skips_unless Byte.beq_iff_toNat_eq rfl⟩

/-- Settles O24: as for the immediate, with the byte of VY. -/
theorem skipOnRegister : Obligations.SkipOnRegister := fun x y _ =>
  ⟨decode_of_encode_eq (encode_seReg x y), decode_of_encode_eq (encode_sneReg x y),
    exec_skips_when Byte.beq_iff_toNat_eq rfl, exec_skips_unless Byte.beq_iff_toNat_eq rfl⟩

end Sys2Proof.Machine
end

section
/-! SUPPORT. The registers and arithmetic: the words of the formats `xyn` and `xnn` as one sum, the result and the flag that
an arm leaves in its registers, and the proofs of `Obligations.SubtractSetsNotBorrow`, `Obligations.ShiftsKeepTheBitShiftedOut`,
`Obligations.AddSetsCarry`, `Obligations.LogicBitByBit`, `Obligations.LoadsAndImmediateAdd` and
`Obligations.RandomByteIsMasked`. -/

namespace Sys2Proof.Machine

/-! ## The words (R72, R79) -/

/-- The fixed digits of a word of format `xyn` in one number. -/
theorem wordXYN_eq (op n : Nat) (x y : Reg) : wordXYN op x y n = u16 (op * 4096 + n + 256 * x.val + 16 * y.val) :=
  congrArg u16 (by omega)

theorem wordXNN_eq (op nn : Nat) (x : Reg) : wordXNN op x nn = u16 (op * 4096 + 256 * x.val + nn) :=
  congrArg u16 (by omega)

/-! ## What an arm leaves in its registers (R95, D7, D11) -/

theorem State.getV_written (s : State) (x : Reg) (r : Byte) : ((s.setV x r).adv 2).getV x = r := by simp

theorem State.getV_logicResult (s : State) (x : Reg) (r : Byte) :
    ((s.setLogicResult Variant.normative x r).adv 2).getV x = r := by simp

/-- The destination holds the result unless it is VF, where the flag is written over it. -/
theorem State.getV_result (s : State) {x : Reg} (hx : x ≠ VF) (r : Byte) (f : Bool) :
    ((s.setResultAndFlag Variant.normative x r f).adv 2).getV x = r := by simp [hx]

theorem State.getV_flag (s : State) (x : Reg) (r : Byte) (f : Bool) :
    ((s.setResultAndFlag Variant.normative x r f).adv 2).getV VF = flagByte f := by simp

/-- The frames of registers and of fields together, as the statements below end. -/
theorem exec_frame (i : Instr) {s t : State} (h : exec i s = .next t) :
    regsExcept (regsWritten i) s t ∧ sameExcept (fieldsWritten i) s t := ⟨exec_regsExcept h, fun _ => exec_agree h⟩

/-! ## Flags and results as numbers and bits (R136 to R140, R142) -/

theorem toNat_flagByte (f : Bool) : (flagByte f).toNat = if f = true then 1 else 0 := by cases f <;> rfl

theorem toNat_flagByte_carry (a b : Byte) : (flagByte (carry a b)).toNat = if 255 < a.toNat + b.toNat then 1 else 0 := by
  simp only [toNat_flagByte, carry, decide_eq_true_eq]

theorem toNat_flagByte_notBorrow (a b : Byte) :
    (flagByte (notBorrow a b)).toNat = if a.toNat < b.toNat then 0 else 1 := by
  simp only [toNat_flagByte, notBorrow, Bool.not_eq_true', decide_eq_false_iff_not, ite_not]

/-- With 256 added before it, the truncated subtraction loses nothing. -/
theorem toNat_difference (a b : Byte) : ((difference a b).toNat : Int) = (a.toNat - b.toNat : Int) % 256 := by
  have := a.isLt
  have := b.isLt
  simp only [difference, BitVec.toNat_ofNat]
  omega

theorem shiftedOutRight_eq_getLsbD (a : Byte) : shiftedOutRight a = a.getLsbD 0 := by
  simp [shiftedOutRight, BitVec.getLsbD, Nat.testBit_eq_decide_div_mod_eq, Bool.beq_eq_decide_eq]

theorem shiftedOutLeft_eq_getLsbD (a : Byte) : shiftedOutLeft a = a.getLsbD 7 := by
  simp [shiftedOutLeft, BitVec.getLsbD, Nat.testBit_eq_decide_div_mod_eq, Bool.beq_eq_decide_eq]

theorem u8_half_eq_ushiftRight (a : Byte) : u8 (a.toNat / 2) = a >>> 1 := by
  have := a.isLt
  apply BitVec.eq_of_toNat_eq
  simp only [BitVec.toNat_ofNat, BitVec.toNat_ushiftRight, Nat.shiftRight_eq_div_pow]
  omega

theorem u8_double_eq_shiftLeft (a : Byte) : u8 (a.toNat * 2) = a <<< 1 := by
  apply BitVec.eq_of_toNat_eq
  simp only [BitVec.toNat_ofNat, BitVec.toNat_shiftLeft, Nat.shiftLeft_eq, pow_one]

theorem getLsbD_shiftLeft_one_succ {a : Byte} {b : Nat} (hb : b < 7) : (a <<< 1).getLsbD (b + 1) = a.getLsbD b := by
  have hin : b + 1 < 8 := by omega
  simp only [BitVec.getLsbD_shiftLeft, hin, decide_true, Nat.not_lt.mpr (Nat.le_add_left 1 b), decide_false, Bool.not_false,
    Bool.and_self, Bool.true_and, Nat.add_sub_cancel]

/-! ## The statements -/

/-- Settles O29: the result is the exact difference reduced, the flag the comparison; SUBN exchanges the operands. -/
theorem subtractSetsNotBorrow : Obligations.SubtractSetsNotBorrow := by
  refine fun x y s => ⟨decode_of_encode_eq (wordXYN_eq 0x8 0x5 x y), decode_of_encode_eq (wordXYN_eq 0x8 0x7 x y),
    ⟨_, rfl, fun hx => ?_, ?_, rfl, exec_frame (.sub x y) rfl⟩,
    ⟨_, rfl, fun hx => ?_, ?_, rfl, exec_frame (.subn x y) rfl⟩⟩
  · rw [State.getV_result s hx, toNat_difference]
  · rw [State.getV_flag, toNat_flagByte_notBorrow]
  · rw [State.getV_result s hx, toNat_difference]
  · rw [State.getV_flag, toNat_flagByte_notBorrow]

/-- Settles O30: the results are the shifts of bit vectors, the flags the bits 0 and 7. -/
theorem shiftsKeepTheBitShiftedOut : Obligations.ShiftsKeepTheBitShiftedOut := by
  refine fun x y s => ⟨decode_of_encode_eq (wordXYN_eq 0x8 0x6 x y), decode_of_encode_eq (wordXYN_eq 0x8 0xE x y),
    ⟨_, rfl, fun hx b => ?_, ?_, rfl, exec_frame (.shr x y) rfl⟩,
    ⟨_, rfl, fun hx => ⟨?_, fun b hb => ?_⟩, ?_, rfl, exec_frame (.shl x y) rfl⟩⟩
  · rw [State.getV_result s hx, u8_half_eq_ushiftRight, BitVec.getLsbD_ushiftRight, Nat.add_comm]
  · rw [State.getV_flag, toNat_flagByte, shiftedOutRight_eq_getLsbD]
  · rw [State.getV_result s hx, u8_double_eq_shiftLeft]
    simp
  · rw [State.getV_result s hx, u8_double_eq_shiftLeft, getLsbD_shiftLeft_one_succ hb]
  · rw [State.getV_flag, toNat_flagByte, shiftedOutLeft_eq_getLsbD]

/-- Settles O28: the result is the sum reduced, and the flag is written over it where X = 0xF. -/
theorem addSetsCarry : Obligations.AddSetsCarry := by
  refine fun x y s => ⟨decode_of_encode_eq (wordXYN_eq 0x8 0x4 x y), _, rfl, fun hx => ?_, ?_, rfl,
    exec_frame (.addReg x y) rfl⟩
  · rw [State.getV_result s hx, BitVec.toNat_ofNat]
  · rw [State.getV_flag, toNat_flagByte_carry]

/-- Settles O27: each result is the operation of bit vectors, written to VX alone. -/
theorem logicBitByBit : Obligations.LogicBitByBit := by
  refine fun x y s => ⟨decode_of_encode_eq (wordXYN_eq 0x8 0x1 x y), decode_of_encode_eq (wordXYN_eq 0x8 0x2 x y),
    decode_of_encode_eq (wordXYN_eq 0x8 0x3 x y), ⟨_, rfl, fun b => ?_, rfl, exec_frame (.orReg x y) rfl⟩,
    ⟨_, rfl, fun b => ?_, rfl, exec_frame (.andReg x y) rfl⟩,
    ⟨_, rfl, fun b => ?_, rfl, exec_frame (.xorReg x y) rfl⟩⟩
  · rw [State.getV_logicResult, BitVec.getLsbD_or]
  · rw [State.getV_logicResult, BitVec.getLsbD_and]
  · rw [State.getV_logicResult, BitVec.getLsbD_xor]

/-- Settles O26: each arm is one write of VX and the advance. -/
theorem loadsAndImmediateAdd : Obligations.LoadsAndImmediateAdd := by
  refine ⟨fun x y s => ⟨decode_of_encode_eq (wordXYN_eq 0x8 0x0 x y), _, rfl, s.getV_written x _, rfl,
      exec_frame (.ldReg x y) rfl⟩,
    fun x nn s => ⟨decode_of_encode_eq (wordXNN_eq 0x6 nn.toNat x), decode_of_encode_eq (wordXNN_eq 0x7 nn.toNat x),
      ⟨_, rfl, s.getV_written x nn, rfl, exec_frame (.ldImm x nn) rfl⟩, _, rfl, ?sum, rfl,
      exec_frame (.addImm x nn) rfl⟩⟩
  case sum => rw [State.getV_written, BitVec.toNat_ofNat]

/-- What RND leaves in VX (R141). -/
theorem State.getV_masked (s : State) (x : Reg) (nn : Byte) :
    ((s.setV x (nn &&& s.draw)).spendDraw.adv 2).getV x = nn &&& Config.draw s.drawCount := by
  simp [State.draw]

/-- Settles O31: the byte is NN AND the draw, whatever the draw is. -/
theorem randomByteIsMasked : Obligations.RandomByteIsMasked := by
  refine fun x nn s => ⟨decode_of_encode_eq (wordXNN_eq 0xC nn.toNat x), _, rfl, fun b => ?_, fun b hb => ?_, rfl, rfl,
    exec_frame (.rnd x nn) rfl⟩
  · rw [State.getV_masked, BitVec.getLsbD_and]
  · rw [State.getV_masked, BitVec.getLsbD_and, hb, Bool.false_and]

end Sys2Proof.Machine
end

section
/-! SUPPORT. The index register and memory: the words of the format `xnn` with NN fixed, the checked block at `I` inside memory
and past it, what a store and a block load leave, and the proofs of `Obligations.IndexAddReducesModulo4095`,
`Obligations.DecimalDigitsAreStored`, `Obligations.BlockStore`, `Obligations.BlockLoad`,
`Obligations.BlockLoadUndoesBlockStore` and `Obligations.IndexLoads`. -/

namespace Sys2Proof.Machine

/-- The fixed digits of a word of format `xnn` whose NN is fixed in one number (R72). -/
theorem wordXNN_eq_fixed (op nn : Nat) (x : Reg) : wordXNN op x nn = u16 (op * 4096 + nn + 256 * x.val) :=
  congrArg u16 (by omega)

theorem encode_ldB (x : Reg) : encode (.ldB x) = u16 (0xF033 + 256 * x.val) := wordXNN_eq_fixed 0xF 0x33 x

theorem encode_ldIVx (x : Reg) : encode (.ldIVx x) = u16 (0xF055 + 256 * x.val) := wordXNN_eq_fixed 0xF 0x55 x

theorem encode_ldVxI (x : Reg) : encode (.ldVxI x) = u16 (0xF065 + 256 * x.val) := wordXNN_eq_fixed 0xF 0x65 x

theorem toNat_u16_of_lt {v : Nat} (hv : v < 65536) : (u16 v).toNat = v := by
  rw [BitVec.toNat_ofNat, Nat.mod_eq_of_lt hv]

/-! ## The checked block at `I` (R53, D4) -/

section
variable {x : Reg} {s : State}

/-- The address that a block past memory reports. -/
theorem State.firstOutside_atI {len : Nat} (h : 4096 < s.I.toNat + len) :
    firstOutside (s.atI 0) len = some (max s.I.toNat 4096) := by
  cases hf : firstOutside (s.atI 0) len with
  | none => exact absurd (firstOutside_eq_none.mp hf) h.not_ge
  | some a => rw [(firstOutside_eq_some hf).2, State.atI, Nat.add_zero]

theorem exec_ldB_of_outside (h : 4096 < s.I.toNat + 3) :
    exec (.ldB x) s = .next (s.raise .writeBounds (some (encode (.ldB x))) (max s.I.toNat 4096)) := by
  rw [exec, execLdB, State.firstOutside_atI h]

theorem exec_ldIVx_of_outside (h : 4096 < s.I.toNat + (x.val + 1)) :
    exec (.ldIVx x) s = .next (s.raise .writeBounds (some (encode (.ldIVx x))) (max s.I.toNat 4096)) := by
  rw [exec, execLdIVx, State.firstOutside_atI h]

theorem exec_ldVxI_of_outside (h : 4096 < s.I.toNat + (x.val + 1)) :
    exec (.ldVxI x) s = .next (s.raise .readBounds (some (encode (.ldVxI x))) (max s.I.toNat 4096)) := by
  rw [exec, execLdVxI, State.firstOutside_atI h]

theorem exec_ldVxI_of_inside (h : s.I.toNat + (x.val + 1) ≤ 4096) :
    exec (.ldVxI x) s = .next
      (((s.setBlockV x fun k => s.memRead (s.I.toNat + k)).setI (s.I.toNat + (x.val + 1))).adv 2) := by
  have hin : firstOutside (s.atI 0) (x.val + 1) = none := firstOutside_eq_none.mpr h
  simp only [exec, execLdVxI, hin]
  rfl

end

/-! ## What an instruction with a checked block leaves (R153 to R155) -/

/-- The field frame of an instruction that could fault and did not: `fault`, the last field its rule names, is kept too. -/
theorem exec_sameExcept_of_fault_kept {i : Instr} {s t : State} {fs : List Field} (h : exec i s = .next t)
    (hfault : t.fault = s.fault) (hfs : fieldsWritten i = fs ++ [.fault]) : sameExcept fs s t := by
  intro f hf
  by_cases hff : f = .fault
  · subst hff
    exact hfault
  · exact exec_agree h (by simp [hfs, hf, hff])

/-- Byte `k` of the block at `I` after a store in range. -/
theorem exec_memRead_stored {i : Instr} {s t : State} (h : exec i s = .next t)
    (hin : s.I.toNat + bytesStored i ≤ 4096) {k : Nat} (hk : k < bytesStored i) :
    t.memRead (s.I.toNat + k) = byteStored s i k := by
  obtain ⟨u, hu, -, -, hmem⟩ := exec_of_store_inside (Nat.zero_lt_of_lt hk) hin
  obtain rfl : u = t := Host.Outcome.next.inj (hu.symm.trans h)
  simp [hmem, overwritten, hk]

/-- Digit `k` in memory after FX33 in range (R153), hundreds first. -/
theorem toNat_memRead_of_ldB {x : Reg} {s t : State} (h : exec (.ldB x) s = .next t) (hin : s.I.toNat + 3 ≤ 4096)
    {k : Nat} (hk : k < 3) : (t.memRead (s.I.toNat + k)).toNat = (s.getV x).toNat / 10 ^ (2 - k) % 10 := by
  rw [exec_memRead_stored h hin hk, byteStored, BitVec.toNat_ofNat]
  omega

/-- Register `r` in memory after a block store in range (R154). -/
theorem memRead_of_ldIVx {x : Reg} {s t : State} (h : exec (.ldIVx x) s = .next t)
    (hin : s.I.toNat + (x.val + 1) ≤ 4096) {r : Reg} (hr : r.val ≤ x.val) :
    t.memRead (s.I.toNat + r.val) = s.getV r := by
  rw [exec_memRead_stored h hin (Nat.lt_succ_of_le hr), byteStored, Fin.ofNat_val_eq_self]

/-- Register `r` after a block load in range (R155). -/
theorem getV_of_ldVxI {x : Reg} {s t : State} (h : exec (.ldVxI x) s = .next t)
    (hin : s.I.toNat + (x.val + 1) ≤ 4096) (r : Reg) :
    t.getV r = if r.val ≤ x.val then s.memRead (s.I.toNat + r.val) else s.getV r := by
  obtain rfl := Host.Outcome.next.inj (h.symm.trans (exec_ldVxI_of_inside hin))
  simp only [State.getV_adv, State.getV_setI, State.getV_setBlockV]

/-! ## FX1E (R151) -/

theorem toNat_u16_reducedIndex (sum : Nat) : (u16 (reducedIndex Variant.normative sum)).toNat = sum % 4095 := by
  rw [reducedIndex_normative, BitVec.toNat_ofNat]
  omega

theorem toNat_flagByte_indexOverflow (sum : Nat) :
    (flagByte (indexOverflow sum)).toNat = if 4095 < sum then 1 else 0 := by
  simp only [toNat_flagByte, indexOverflow, decide_eq_true_eq]

/-! ## The statements -/

/-- Settles O33: `I` holds the exact sum reduced, VF the comparison, whatever X is. -/
theorem indexAddReducesModulo4095 : Obligations.IndexAddReducesModulo4095 := by
  refine fun x s => ⟨decode_of_encode_eq (wordXNN_eq_fixed 0xF 0x1E x), _, rfl, ?_, ?_, rfl,
    exec_frame (.addI x) rfl⟩
  · exact toNat_u16_reducedIndex (s.indexSum x)
  · rw [State.getV_adv, State.getV_setV, if_pos rfl, toNat_flagByte_indexOverflow, State.indexSum]

/-- Settles O34: the three bytes stored are the quotients by powers of 10, modulo 10, which add up to a byte again. -/
theorem decimalDigitsAreStored : Obligations.DecimalDigitsAreStored := by
  refine fun x s => ⟨decode_of_encode_eq (encode_ldB x), fun hin => ?inside, fun hout => ?outside⟩
  case inside =>
    have hin : s.I.toNat + 3 ≤ 4096 := by omega
    have h : exec (.ldB x) s = _ := execLdB_of_inside hin
    have hhundreds := toNat_memRead_of_ldB h hin (k := 0) (by omega)
    have htens := toNat_memRead_of_ldB h hin (k := 1) (by omega)
    have hones := toNat_memRead_of_ldB h hin (k := 2) (by omega)
    rw [Nat.add_zero] at hhundreds
    have := (s.getV x).isLt
    refine ⟨_, h, ?_, ?_, ?_, ?_, rfl, exec_memExcept h, exec_sameExcept_of_fault_kept h (by simp) rfl⟩ <;> omega
  case outside =>
    rw [exec_ldB_of_outside (by omega), encode_ldB, State.raise]

/-- Settles O35: a block in range is overwritten by the registers, one past memory raises with its own word. -/
theorem blockStore : Obligations.BlockStore := by
  refine fun x s => ⟨decode_of_encode_eq (encode_ldIVx x), fun hin => ?inside, fun hout => ?outside⟩
  case inside =>
    have h : exec (.ldIVx x) s = _ := execLdIVx_of_inside (by omega)
    exact ⟨_, h, fun r => memRead_of_ldIVx h (by omega), toNat_u16_of_lt (by omega), rfl, exec_memExcept h,
      exec_sameExcept_of_fault_kept h (by simp) rfl⟩
  case outside =>
    rw [exec_ldIVx_of_outside (by omega), encode_ldIVx, State.raise]

/-- Settles O36: a block in range is read into the registers, one past memory raises with its own word. -/
theorem blockLoad : Obligations.BlockLoad := by
  refine fun x s => ⟨decode_of_encode_eq (encode_ldVxI x), fun hin => ?inside, fun hout => ?outside⟩
  case inside =>
    have h := exec_ldVxI_of_inside (x := x) (s := s) (by omega)
    exact ⟨_, h, getV_of_ldVxI h (by omega), toNat_u16_of_lt (by omega), by simp,
      exec_sameExcept_of_fault_kept h (by simp) rfl⟩
  case outside =>
    rw [exec_ldVxI_of_outside (by omega), encode_ldVxI, State.raise]

/-- Settles O37: the load reads the bytes of the block just stored, at the same addresses. -/
theorem blockLoadUndoesBlockStore : Obligations.BlockLoadUndoesBlockStore := by
  intro x s v hin
  have hin : s.I.toNat + (x.val + 1) ≤ 4096 := by omega
  obtain ⟨t, ht⟩ := exec_answers (.ldIVx x) s
  obtain ⟨u, hu⟩ := exec_answers (.ldVxI x) { t with I := s.I, V := v }
  refine ⟨t, u, ht, hu, fun r => ?_⟩
  rw [getV_of_ldVxI hu hin]
  split
  case isTrue hr => exact memRead_of_ldIVx ht hin hr
  case isFalse => rfl

/-- Settles O32: a 12-bit address and 5 times a byte are both below 2^16. -/
theorem indexLoads : Obligations.IndexLoads := by
  constructor
  · intro nnn s
    have := nnn.isLt
    exact ⟨decode_encode (.ldI nnn), _, rfl, toNat_u16_of_lt (by omega), rfl, (exec_frame (.ldI nnn) rfl).2⟩
  · intro x s
    have := (s.getV x).isLt
    exact ⟨decode_of_encode_eq (wordXNN_eq_fixed 0xF 0x29 x), _, rfl, toNat_u16_of_lt (v := 5 * _) (by omega), rfl,
      (exec_frame (.ldF x) rfl).2⟩

end Sys2Proof.Machine
end

section
/-! SUPPORT. The timers and the keypad: the cycle of an instruction that does not fault, the timers over one cycle, the two
outcomes of LD_Vx_K, and the proofs of `Obligations.DelayTimerAccess`, `Obligations.SoundTimerWrite`,
`Obligations.BeepComesWhenTheSoundTimerRunsOut` and `Obligations.KeyWaitTakesTheHighestKey`. -/

namespace Sys2Proof.Machine

/-- The cycle of an instruction whose arm takes no fault: the arm, the record of the word and the tick. -/
theorem step_of_exec {i : Instr} {s u : State} (hs : fetchable s) (hd : decode s.wordAtPc = .ok i)
    (hu : exec i s = .next u) (hfault : u.fault = none) : step s = .next (u.setOpcode s.wordAtPc).tick := by
  rw [step_of_execWord hs ((execWord_of_ok hd s).trans hu), endCycle_of_no_fault hfault]

/-! ## The delay timer (R160, R161) -/

/-- A cycle of LD_Vx_DT: the register takes the timer from before the tick. -/
theorem step_of_ldVxDt {x : Reg} {s : State} (hs : fetchable s) (hd : decode s.wordAtPc = .ok (.ldVxDt x)) :
    ∃ t, step s = .next t ∧ t.getV x = s.DT ∧ t.DT.toNat = s.DT.toNat - 1 :=
  ⟨_, step_of_exec hs hd rfl hs.1, by simp, State.toNat_tick_DT _⟩

/-- A cycle of LD_DT_Vx: its own tick decrements what it wrote. -/
theorem step_of_ldDtVx {x : Reg} {s : State} (hs : fetchable s) (hd : decode s.wordAtPc = .ok (.ldDtVx x)) :
    ∃ t, step s = .next t ∧ t.DT.toNat = (s.getV x).toNat - 1 :=
  ⟨_, step_of_exec hs hd rfl hs.1, State.toNat_tick_DT _⟩

/-- Settles O39: the arm of LD_Vx_DT reads before the tick, and the tick after LD_DT_Vx decrements what it wrote, which is what
the next cycle starts from. -/
theorem delayTimerAccess : Obligations.DelayTimerAccess := by
  refine ⟨fun x s => ⟨decode_of_encode_eq (wordXNN_eq_fixed 0xF 0x07 x), decode_of_encode_eq (wordXNN_eq_fixed 0xF 0x15 x),
      ⟨_, rfl, s.getV_written x _, rfl, exec_frame (.ldVxDt x) rfl⟩, _, rfl, rfl, rfl, (exec_frame (.ldDtVx x) rfl).2⟩,
    fun _ _ => step_of_ldVxDt, fun s x hs hd => ?readBack⟩
  case readBack =>
    obtain ⟨t, hstep, hticked⟩ := step_of_ldDtVx hs hd
    refine ⟨t, hstep, hticked, fun y ht hdt => ?_⟩
    obtain ⟨u, hu, hread, -⟩ := step_of_ldVxDt ht hdt
    exact ⟨u, hu, hread ▸ hticked⟩

/-! ## The sound timer (R162) -/

/-- Settles O40: the tick decrements, and tests for 1, the value the arm wrote. -/
theorem soundTimerWrite : Obligations.SoundTimerWrite :=
  ⟨fun x _ => ⟨decode_of_encode_eq (wordXNN_eq_fixed 0xF 0x18 x), _, rfl, rfl, rfl, (exec_frame (.ldStVx x) rfl).2⟩,
    fun _ _ hs hd => ⟨_, step_of_exec hs hd rfl hs.1, State.toNat_tick_ST _, State.tick_beep_toNat _⟩⟩

theorem writes_ST_iff {i : Instr} : .ST ∈ fieldsWritten i ↔ ∃ x, i = .ldStVx x := by
  cases i <;> simp [fieldsWritten]

/-- The arm of a word that is no LD_ST_Vx leaves the sound timer alone. -/
theorem execWord_ST {w : Word} {s t : State} (h : execWord w s = .next t) (hw : ∀ x, decode w ≠ .ok (.ldStVx x)) :
    t.ST = s.ST := by
  refine execWord_agree h (f := .ST) fun hf => ?_
  obtain ⟨i, hd, hi⟩ := writes_of_mem_wordFields hf (by decide)
  obtain ⟨x, rfl⟩ := writes_ST_iff.mp hi
  exact hw x hd

/-- A cycle that neither faults nor executes LD_ST_Vx counts the sound timer down, and sets `beep` when it was 1 (R96). -/
theorem step_counts_ST_down {s t : State} (h : step s = .next t) (ht : t.fault = none)
    (hw : ∀ x, decode s.wordAtPc ≠ .ok (.ldStVx x)) :
    t.ST.toNat = s.ST.toNat - 1 ∧ t.beep = (s.beep || decide (s.ST.toNat = 1)) := by
  obtain ⟨-, u, hu, rfl⟩ := step_eq_next_of_no_fault h ht
  rw [← execWord_ST hu hw, ← execWord_beep hu]
  exact ⟨State.toNat_tick_ST _, State.tick_beep_toNat _⟩

/-- Settles O41: after `j` cycles the timer is at `n - j`, by induction on `j`; so it is not 1 at the start of any cycle before
the n-th, and is at the start of the n-th. -/
theorem beepComesWhenTheSoundTimerRunsOut : Obligations.BeepComesWhenTheSoundTimerRunsOut := by
  intro n path hn hstart hpath
  have hcycle : ∀ j < n, (path (j + 1)).ST.toNat = (path j).ST.toNat - 1 ∧
      (path (j + 1)).beep = ((path j).beep || decide ((path j).ST.toNat = 1)) := fun j hj =>
    have ⟨hstep, hfault, hw⟩ := hpath j hj
    step_counts_ST_down hstep hfault hw
  have htimer : ∀ j ≤ n, (path j).ST.toNat = n - j := by
    intro j
    induction j with
    | zero => exact fun _ => hstart
    | succ j ih => exact fun hj => by rw [(hcycle j hj).1, ih (by omega), Nat.sub_sub]
  have hsilent : ∀ j < n, (path j).beep = (path 0).beep := by
    intro j
    induction j with
    | zero => exact fun _ => rfl
    | succ j ih =>
      intro hj
      have hnotOne : (path j).ST.toNat ≠ 1 := by rw [htimer j (by omega)]; omega
      rw [(hcycle j (by omega)).2, decide_eq_false hnotOne, Bool.or_false, ih (by omega)]
  refine ⟨htimer, hsilent, ?_⟩
  obtain ⟨m, rfl⟩ : ∃ m, n = m + 1 := ⟨n - 1, by omega⟩
  have hone : (path m).ST.toNat = 1 := by rw [htimer m (by omega)]; omega
  rw [(hcycle m (by omega)).2, decide_eq_true hone, Bool.or_true]

/-! ## The keypad (R163) -/

/-- A pressed key with no higher one pressed is the key FX0A finds. -/
theorem State.highestKey_of_max {s : State} {k : Fin 16} (hk : s.getKey k = true)
    (hmax : ∀ j, s.getKey j = true → j ≤ k) : s.highestKey = some k := by
  cases hfound : s.highestKey with
  | none => exact absurd (State.highestKey_eq_none.mp hfound k) (by simp [hk])
  | some j =>
    obtain ⟨hj, habove⟩ := State.highestKey_eq_some hfound
    have hle : k ≤ j := Fin.not_lt.mp fun hlt => by simp [habove k hlt] at hk
    rw [Fin.le_antisymm (hmax j hj) hle]

theorem exec_ldVxK_of_key (x : Reg) {s : State} {k : Fin 16} (h : s.highestKey = some k) :
    exec (.ldVxK x) s = .next ((s.setV x (u8 k.val)).adv 2) := by
  rw [exec, execLdVxK, h]

theorem exec_ldVxK_of_no_key (x : Reg) {s : State} (h : s.highestKey = none) : exec (.ldVxK x) s = .next s := by
  rw [exec, execLdVxK, h]

/-- Settles O42: the scan finds the highest pressed key, whose number fits a byte, or none. -/
theorem keyWaitTakesTheHighestKey : Obligations.KeyWaitTakesTheHighestKey := by
  refine fun x s => ⟨decode_of_encode_eq (wordXNN_eq_fixed 0xF 0x0A x), fun k hk hmax => ?pressed,
    fun hkeys => exec_ldVxK_of_no_key x (State.highestKey_eq_none.mpr hkeys)⟩
  case pressed =>
    have h := exec_ldVxK_of_key x (State.highestKey_of_max hk hmax)
    refine ⟨_, h, ?_, rfl, exec_frame (.ldVxK x) h⟩
    rw [State.getV_written, BitVec.toNat_ofNat, Nat.mod_eq_of_lt (by omega)]

end Sys2Proof.Machine
end

section
/-! SUPPORT. The display: the sprite of a draw in the words of R171 to R173, the state a draw in range leaves, the first
failing access of one out of range, a second draw at the same place, and the proofs of
`Obligations.DrawInvertsTheTouchedPixels`, `Obligations.DrawReportsTheFirstFailingAccess`,
`Obligations.DrawingTwiceRestoresTheDisplay` and `Obligations.ClearTurnsEveryPixelOff`. -/

namespace Sys2Proof.Machine

theorem encode_drw (x y : Reg) (n : Rows) :
    encode (.drw x y n) = u16 (0xD000 + 256 * x.val + 16 * y.val + n.val) := congrArg u16 (by omega)

theorem toNat_flagByte_eq_one_iff {f : Bool} : (flagByte f).toNat = 1 ↔ f = true := by cases f <;> decide

theorem toNat_flagByte_le_one (f : Bool) : (flagByte f).toNat ≤ 1 := by cases f <;> decide

/-! ## The sprite in the spec's words (R171 to R173) -/

theorem spriteBit_eq_getLsbD (b : Byte) (col : Nat) : spriteBit b col = b.getLsbD (7 - col) := by
  simp [spriteBit, BitVec.getLsbD, Nat.testBit_eq_decide_div_mod_eq, Bool.beq_eq_decide_eq]

/-- The pixels DXYN touches, with the coordinates in VX and VY (R171, D8). -/
def State.drawnPixels (s : State) (x y : Reg) (n : Rows) : List Nat :=
  s.spritePixels (s.getV x).toNat (s.getV y).toNat n.val

section
variable {s : State} {x y : Reg} {n : Rows}

theorem State.mem_drawnPixels {p : Nat} : p ∈ s.drawnPixels x y n ↔ touched s x y n p := by
  simp only [State.drawnPixels, State.mem_spritePixels, spriteBit_eq_getLsbD]
  rfl

theorem le_of_touched {p : Nat} (h : drawable s x y n) (hp : touched s x y n p) : p ≤ 2047 := by
  obtain ⟨row, hrow, col, hcol, hset, rfl⟩ := hp
  exact (h row hrow).2 col hcol hset

theorem State.rowFault_eq_none_of_rowInRange {row : Nat} (h : rowInRange s x y row) :
    s.rowFault (s.getV x).toNat (s.getV y).toNat row = none := by
  obtain ⟨haddress, hpixels⟩ := h
  refine State.rowFault_eq_none.mpr ⟨haddress, fun p hp => ?_⟩
  obtain ⟨col, hcol, rfl⟩ := List.mem_map.mp hp
  rw [mem_setColumns, spriteBit_eq_getLsbD] at hcol
  exact hpixels col hcol.1 hcol.2

theorem State.spriteFault_eq_none_of_drawable (h : drawable s x y n) :
    s.spriteFault (s.getV x).toNat (s.getV y).toNat n.val = none :=
  State.spriteFault_eq_none.mpr
    ⟨fun row hrow => (h row hrow).1, fun _ hp => le_of_touched h (State.mem_drawnPixels.mp hp)⟩

/-! ## A draw in range (R171) -/

/-- The display after the effect pass of DXYN, and whether a touched pixel was on before. -/
def State.drawnDisplay (s : State) (x y : Reg) (n : Rows) : Display × Bool :=
  xorPixels (s.drawnPixels x y n) s.Disp false

/-- The state a DXYN in range leaves. -/
def State.drawn (s : State) (x y : Reg) (n : Rows) : State :=
  (((s.setDisp (s.drawnDisplay x y n).1).setV VF (flagByte (s.drawnDisplay x y n).2)).requestRedraw).adv 2

theorem exec_drw_of_drawable (h : drawable s x y n) : exec (.drw x y n) s = .next (s.drawn x y n) := by
  simp only [exec, execDrw, execDrwWith, State.coordinate_normative, State.spriteFault_eq_none_of_drawable h]
  rfl

/-- The effect pass over the touched pixels: no two set bits touch the same one. -/
theorem State.drawnDisplay_spec (h : drawable s x y n) :
    (∀ p, pixel (s.drawnDisplay x y n).1 p = (pixel s.Disp p ^^ decide (p ∈ s.drawnPixels x y n))) ∧
    (s.drawnDisplay x y n).2 = (s.drawnPixels x y n).any (pixel s.Disp) :=
  xorPixels_spec _ _ _ (s.spritePixels_nodup _ _ _) fun _ hp => le_of_touched h (State.mem_drawnPixels.mp hp)

theorem State.pixel_drawn (h : drawable s x y n) (p : Nat) :
    pixel (s.drawn x y n).Disp p = (pixel s.Disp p ^^ decide (touched s x y n p)) := by
  refine ((State.drawnDisplay_spec h).1 p).trans ?_
  rw [decide_eq_decide.mpr State.mem_drawnPixels]

theorem State.drawnDisplay_collides_iff (h : drawable s x y n) :
    (s.drawnDisplay x y n).2 = true ↔ ∃ p ≤ 2047, touched s x y n p ∧ pixel s.Disp p = true := by
  rw [(State.drawnDisplay_spec h).2, List.any_eq_true]
  refine exists_congr fun p => ?_
  rw [State.mem_drawnPixels]
  exact ⟨fun ⟨hp, hon⟩ => ⟨le_of_touched h hp, hp, hon⟩, And.right⟩

theorem State.getV_VF_drawn : (s.drawn x y n).getV VF = flagByte (s.drawnDisplay x y n).2 := by
  simp [State.drawn]

/-- VF after a draw says whether a touched pixel was on before. -/
theorem State.toNat_getV_VF_drawn (h : drawable s x y n) :
    ((s.drawn x y n).getV VF).toNat = 1 ↔ ∃ p ≤ 2047, touched s x y n p ∧ pixel s.Disp p = true := by
  rw [State.getV_VF_drawn, toNat_flagByte_eq_one_iff, State.drawnDisplay_collides_iff h]

/-! ## The first failing access (R171, R184) -/

/-- The first index that answers is what a search over a range reports. -/
theorem findSome?_range_eq_some {α : Type} {f : Nat → Option α} {m k : Nat} {a : α} (hk : k < m)
    (hfirst : ∀ j < k, f j = none) (ha : f k = some a) : (List.range m).findSome? f = some a := by
  induction m with
  | zero => exact absurd hk k.not_lt_zero
  | succ m ih =>
    rw [List.range_succ, List.findSome?_append]
    by_cases hkm : k < m
    · rw [ih hkm, Option.some_or]
    · obtain rfl : k = m := by omega
      have hnone : (List.range k).findSome? f = none :=
        List.findSome?_eq_none_iff.mpr fun j hj => hfirst j (List.mem_range.mp hj)
      rw [hnone, Option.none_or, List.findSome?_singleton, ha]

/-- A draw whose rows before `row` pass the check reports the fault of that row. -/
theorem exec_drw_of_rowFault {row info : Nat} {kind : FaultKind} (hrow : row < n.val)
    (hbefore : ∀ r < row, rowInRange s x y r)
    (hfault : s.rowFault (s.getV x).toNat (s.getV y).toNat row = some (kind, info)) :
    exec (.drw x y n) s = .next { s with
      fault := some ⟨kind, s.pc, some (u16 (0xD000 + 256 * x.val + 16 * y.val + n.val)), info⟩ } := by
  have hsprite : s.spriteFault (s.getV x).toNat (s.getV y).toNat n.val = some (kind, info) :=
    findSome?_range_eq_some hrow (fun r hr => State.rowFault_eq_none_of_rowInRange (hbefore r hr)) hfault
  simp only [exec, execDrw, execDrwWith, State.coordinate_normative, hsprite, encode_drw, State.raise]

/-- A search of the set columns of a row finds the first set bit that passes. -/
theorem find?_setColumns {b : Byte} {q : Nat → Bool} {col : Nat} (hcol : col < 8) (hset : b.getLsbD (7 - col) = true)
    (hq : q col = true) (hfirst : ∀ c < col, b.getLsbD (7 - c) = true → q c = false) :
    (setColumns b).find? q = some col := by
  rw [setColumns, List.find?_filter, List.find?_range_eq_some]
  simp only [spriteBit_eq_getLsbD]
  refine ⟨decide_eq_true ⟨hset, hq⟩, List.mem_range.mpr hcol, fun c hc => ?_⟩
  rw [Bool.not_eq_true', decide_eq_false_iff_not]
  exact fun ⟨hcset, hcq⟩ => Bool.false_ne_true ((hfirst c hc hcset).symm.trans hcq)

theorem State.rowFault_of_address {x0 y0 row : Nat} (h : 4095 < s.I.toNat + row) :
    s.rowFault x0 y0 row = some (.readBounds, s.I.toNat + row) := if_pos h

/-- A row in memory reports its first set bit, in column order, that is off the display. -/
theorem State.rowFault_of_pixel {row col : Nat} (haddress : s.I.toNat + row ≤ 4095) (hcol : col < 8)
    (hset : spriteSet s row col) (hout : 2047 < spriteAt s x y row col)
    (hfirst : ∀ c < col, spriteSet s row c → spriteAt s x y row c ≤ 2047) :
    s.rowFault (s.getV x).toNat (s.getV y).toNat row = some (.displayBounds, spriteAt s x y row col) := by
  have hfound : (setColumns (s.memRead (s.atI row))).find?
      ((fun p => decide (2048 ≤ p)) ∘ pixelIndex (s.getV x).toNat (s.getV y).toNat row) = some col :=
    find?_setColumns hcol hset (decide_eq_true hout) fun c hc hcset => decide_eq_false (hfirst c hc hcset).not_gt
  have hin : ¬ 4096 ≤ s.atI row := haddress.not_gt
  rw [State.rowFault, if_neg hin, State.rowPixels, List.find?_map, hfound]
  rfl

/-! ## A second draw at the same place (95, SRC-7) -/

section
variable (hx : (s.drawn x y n).getV x = s.getV x) (hy : (s.drawn x y n).getV y = s.getV y)
include hx hy

theorem touched_drawn_iff {p : Nat} : touched (s.drawn x y n) x y n p ↔ touched s x y n p := by
  simp only [touched, spriteAt, hx, hy]
  rfl

theorem drawable_drawn (h : drawable s x y n) : drawable (s.drawn x y n) x y n := by
  simp only [drawable, rowInRange, spriteAt, hx, hy]
  exact h

/-- A pixel touched twice is inverted twice. -/
theorem State.Disp_drawn_drawn (h : drawable s x y n) : ((s.drawn x y n).drawn x y n).Disp = s.Disp := by
  refine Display.ext fun p _ => ?_
  rw [State.pixel_drawn (drawable_drawn hx hy h), State.pixel_drawn h, decide_eq_decide.mpr (touched_drawn_iff hx hy),
    Bool.xor_assoc, Bool.xor_self, Bool.xor_false]

/-- The second draw finds on exactly the touched pixels that were off. -/
theorem State.toNat_getV_VF_drawn_drawn (h : drawable s x y n) :
    (((s.drawn x y n).drawn x y n).getV VF).toNat = 1 ↔ ∃ p ≤ 2047, touched s x y n p ∧ pixel s.Disp p = false := by
  rw [State.toNat_getV_VF_drawn (drawable_drawn hx hy h)]
  refine exists_congr fun p => and_congr_right fun _ => ?_
  rw [touched_drawn_iff hx hy, State.pixel_drawn h]
  exact and_congr_right fun hp => by simp [hp]

end
end

/-! ## The statements -/

/-- Settles O44: the effect pass inverts the touched pixels, and VF is 1 exactly when one of them was on. -/
theorem drawInvertsTheTouchedPixels : Obligations.DrawInvertsTheTouchedPixels := by
  refine fun x y n s => ⟨decode_of_encode_eq (encode_drw x y n), fun h => ?_⟩
  have hexec := exec_drw_of_drawable h
  have hflag := State.toNat_getV_VF_drawn h
  have hle : ((s.drawn x y n).getV VF).toNat ≤ 1 := State.getV_VF_drawn ▸ toNat_flagByte_le_one _
  refine ⟨_, hexec, fun p _ hp => ?inverted, fun p _ hp => ?kept, hflag.mpr, fun hnone => ?clear, rfl, rfl,
    exec_regsExcept hexec, exec_sameExcept_of_fault_kept hexec rfl rfl⟩
  case inverted => rw [State.pixel_drawn h, decide_eq_true hp, Bool.xor_true]
  case kept => rw [State.pixel_drawn h, decide_eq_false hp, Bool.xor_false]
  case clear =>
    have := mt hflag.mp hnone
    omega

/-- Settles O45: the rows before pass their check, and the row itself fails at its address or at its first set bit off the
display. -/
theorem drawReportsTheFirstFailingAccess : Obligations.DrawReportsTheFirstFailingAccess :=
  fun _ _ _ _ _ hrow hbefore =>
    ⟨fun haddress => exec_drw_of_rowFault hrow hbefore (State.rowFault_of_address haddress),
      fun _ hcol haddress hset hout hfirst =>
        exec_drw_of_rowFault hrow hbefore (State.rowFault_of_pixel haddress hcol hset hout hfirst)⟩

/-- Settles O46: the second draw touches the pixels of the first, each inverted by it. -/
theorem drawingTwiceRestoresTheDisplay : Obligations.DrawingTwiceRestoresTheDisplay := by
  intro x y n s h
  have hexec := exec_drw_of_drawable h
  have hregs : ∀ r, r ≠ VF → (s.drawn x y n).getV r = s.getV r := fun r hr =>
    exec_regsExcept hexec r (by simpa [regsWritten] using hr)
  exact ⟨_, hexec, hregs x, hregs y, State.toNat_getV_VF_drawn h, State.getV_VF_drawn ▸ toNat_flagByte_le_one _,
    fun hx hy => ⟨_, exec_drw_of_drawable (drawable_drawn hx hy h), State.Disp_drawn_drawn hx hy h,
      State.toNat_getV_VF_drawn_drawn hx hy h⟩⟩

/-- Settles O43: CLS replaces the display by the clear one. -/
theorem clearTurnsEveryPixelOff : Obligations.ClearTurnsEveryPixelOff :=
  ⟨decode_encode .cls, fun _ => ⟨_, rfl, fun p _ => pixel_clear p, rfl, rfl, (exec_frame .cls rfl).2⟩⟩

end Sys2Proof.Machine
end

section
/-! SUPPORT. What a cycle does to the list of memory cells, and the proof of `Obligations.MemoryStaysCanonical`. Frames
(`agree`) speak of reads alone; the canonical form is of the list itself. -/

namespace Sys2Proof.Machine

@[simp] theorem State.skipIf_mem (s : State) (c : Bool) : (s.skipIf c).mem = s.mem := by cases c <;> rfl

/-- An instruction leaves the list of cells alone, or it is a store and writes one block to it. -/
theorem exec_mem_cases {i : Instr} {s t : State} (h : exec i s = .next t) :
    t.mem = s.mem ∨ ∃ a bs, t.mem = s.mem.writeBlock a bs := by
  cases i
  case ldB =>
    rcases execLdB_cases h with ⟨_, -, rfl⟩ | ⟨-, rfl⟩
    · exact .inl rfl
    · exact .inr ⟨_, _, rfl⟩
  case ldIVx =>
    rcases execLdIVx_cases h with ⟨_, -, rfl⟩ | ⟨-, rfl⟩
    · exact .inl rfl
    · exact .inr ⟨_, _, rfl⟩
  case ret => rcases execRet_cases h with ⟨-, rfl⟩ | ⟨-, rfl⟩ <;> exact .inl (by simp)
  case call => rcases execCall_cases h with ⟨-, rfl⟩ | ⟨-, rfl⟩ <;> exact .inl (by simp)
  case skp => rcases execSkp_cases h with ⟨-, rfl⟩ | ⟨_, -, rfl⟩ <;> exact .inl (by simp)
  case sknp => rcases execSknp_cases h with ⟨-, rfl⟩ | ⟨_, -, rfl⟩ <;> exact .inl (by simp)
  case ldVxK => rcases execLdVxK_cases h with ⟨_, -, rfl⟩ | ⟨-, rfl⟩ <;> exact .inl (by simp)
  case drw => rcases execDrw_cases h with ⟨_, _, -, rfl⟩ | ⟨-, _, _, -, rfl⟩ <;> exact .inl (by simp)
  case ldVxI => rcases execLdVxI_cases h with ⟨_, -, rfl⟩ | ⟨-, rfl⟩ <;> exact .inl (by simp)
  -- The other arms are one chain of updates each, none of memory.
  all_goals
    cases h
    exact .inl (by simp)

theorem exec_mem_wf {i : Instr} {s t : State} (hwf : s.mem.wf) (h : exec i s = .next t) : t.mem.wf := by
  rcases exec_mem_cases h with e | ⟨a, bs, e⟩
  · rwa [e]
  · rw [e]
    exact Memory.wf_writeBlock hwf a bs

theorem execWord_mem_wf {w : Word} {s t : State} (hwf : s.mem.wf) (h : execWord w s = .next t) : t.mem.wf := by
  rcases execWord_cases h with ⟨i, -, hi⟩ | ⟨r, -, rfl⟩
  · exact exec_mem_wf hwf hi
  · exact hwf

@[simp] theorem endCycle_mem (w : Word) (t : State) : (endCycle w t).mem = t.mem := by
  unfold endCycle
  split <;> simp

theorem step_mem_wf {s t : State} (hwf : s.mem.wf) (h : step s = .next t) : t.mem.wf := by
  rcases step_cases h with ⟨-, rfl⟩ | ⟨-, -, rfl⟩ | ⟨-, u, hu, rfl⟩
  · exact hwf
  · exact hwf
  · rw [endCycle_mem]
    exact execWord_mem_wf hwf hu

theorem hostLoad_mem_wf {s : State} (hwf : s.mem.wf) (bytes : List Byte) : (hostLoad bytes s).1.mem.wf := by
  unfold hostLoad
  split
  · exact Memory.wf_writeBlock hwf 512 bytes
  · exact hwf

theorem hostAct_mem_wf {s : State} (hwf : s.mem.wf) (font : Font) (a : HostAction) : (hostAct font a s).1.mem.wf := by
  cases a with
  | reset => exact State.resetWith_mem_wf font
  | load bytes => exact hostLoad_mem_wf hwf bytes
  | _ => exact hwf

/-- Settles O49: whatever writes memory writes a block, which keeps the canonical form. -/
theorem memoryStaysCanonical : Obligations.MemoryStaysCanonical :=
  ⟨fun _ _ => step_mem_wf, fun font _ a hwf => hostAct_mem_wf hwf font a, State.resetWith_mem_wf⟩

end Sys2Proof.Machine
end

section
/-! SUPPORT. Faults over a schedule, and the cause of every fault: the proofs of `Obligations.FaultLastsUntilReset` and
`Obligations.FaultRecordsNameTheirCause`. -/

namespace Sys2Proof.Machine

/-! ## A fault under a schedule (R183) -/

/-- An event but `reset` answers, on a faulted core, a state with the same fault. -/
theorem runEvent_of_faulted (font : Font) {e : Event} {s : State} (hs : s.fault ≠ none) (he : e ≠ .act .reset) :
    ∃ t, runEvent font e s = .next t ∧ t.fault = s.fault := by
  cases e with
  | cycle => exact ⟨s, step_of_faulted hs, rfl⟩
  | act a => exact ⟨_, rfl, hostAct_fault (fun ha => he (congrArg Event.act ha)) s⟩

theorem runSchedule_cons {font : Font} {e : Event} {s t : State} (h : runEvent font e s = .next t) (es : List Event) :
    runSchedule font (e :: es) s = runSchedule font es t := by
  rw [runSchedule, h]

/-- Settles O11, by induction on the schedule: each event leaves the core with the same fault. -/
theorem faultLastsUntilReset : Obligations.FaultLastsUntilReset := by
  intro font es
  induction es with
  | nil => exact fun s _ _ => ⟨s, rfl, rfl⟩
  | cons e es ih =>
    intro s hs hes
    rw [List.mem_cons, not_or] at hes
    obtain ⟨he, hes⟩ := hes
    obtain ⟨t, hrun, ht⟩ := runEvent_of_faulted font hs (Ne.symm he)
    rw [runSchedule_cons hrun, ← ht]
    exact ih t (ht ▸ hs) hes

/-! ## The cause of a fault (R182) -/

/-- What a search over a range reports comes from the first index that answers. -/
theorem exists_first_of_findSome?_range {α : Type} {f : Nat → Option α} {m : Nat} {a : α}
    (h : (List.range m).findSome? f = some a) : ∃ k < m, (∀ j < k, f j = none) ∧ f k = some a := by
  induction m with
  | zero => simp at h
  | succ m ih =>
    rw [List.range_succ, List.findSome?_append, List.findSome?_singleton] at h
    cases hfront : (List.range m).findSome? f with
    | some b =>
      rw [hfront, Option.some_or] at h
      obtain ⟨k, hk, hfirst⟩ := ih (hfront.trans h)
      exact ⟨k, by omega, hfirst⟩
    | none =>
      rw [hfront, Option.none_or] at h
      exact ⟨m, m.lt_succ_self, fun j hj => List.findSome?_eq_none_iff.mp hfront j (List.mem_range.mpr hj), h⟩

/-- What the check of a block of `m + 1` bytes at `I` reports is the lowest of its addresses above 4095. -/
theorem State.le_of_firstOutside_atI {s : State} {m a : Nat} (h : firstOutside (s.atI 0) (m + 1) = some a) :
    a = max s.I.toNat 4096 ∧ a ≤ s.I.toNat + m := by
  obtain ⟨hout, rfl⟩ := firstOutside_eq_some h
  rw [State.atI, Nat.add_zero] at *
  exact ⟨rfl, by omega⟩

/-- The check pass of DXYN reports the lowest row address above 4095, or a touched pixel past the display. -/
theorem faultCause_of_spriteFault {s : State} {x y : Reg} {n : Rows} {kind : FaultKind} {info : Nat}
    (h : s.spriteFault (s.getV x).toNat (s.getV y).toNat n.val = some (kind, info)) :
    faultCause s (.drw x y n) info kind := by
  obtain ⟨row, hrow, hbefore, hfail⟩ := exists_first_of_findSome?_range h
  rcases State.rowFault_eq_some hfail with ⟨rfl, rfl, hout⟩ | ⟨rfl, -, hpixel, hout⟩
  · have hinside : ∀ r < row, s.I.toNat + r ≤ 4095 := fun r hr => (State.rowFault_eq_none.mp (hbefore r hr)).1
    rw [State.atI] at hout
    have hlowest : s.I.toNat + row = max s.I.toNat 4096 := by
      cases row with
      | zero => omega
      | succ r =>
        have := hinside r r.lt_succ_self
        omega
    exact ⟨hlowest, .inl ⟨x, y, n, rfl, Nat.add_lt_add_left hrow _⟩⟩
  · exact ⟨hout, x, y, n, rfl, List.mem_flatMap.mpr ⟨row, List.mem_range.mpr hrow, hpixel⟩⟩

/-- An instruction that takes a fault is one that R182 lists for the kind, in the case it gives. -/
theorem faultCause_of_exec {i : Instr} {s t : State} {r : FaultRecord} (hs : s.fault = none) (h : exec i s = .next t)
    (ht : t.fault = some r) : faultCause s i r.info r.kind := by
  have hwrites : .fault ∈ fieldsWritten i := by
    by_contra hf
    have hkept : t.fault = s.fault := exec_agree h hf
    simp [hkept, hs] at ht
  cases i <;>
    simp only [fieldsWritten, List.mem_cons, List.not_mem_nil, or_false, or_true, or_self, reduceCtorEq] at hwrites
  case ret =>
    rcases execRet_cases h with ⟨hsp, rfl⟩ | ⟨-, rfl⟩
    · cases ht
      exact ⟨rfl, hsp, hsp⟩
    · simp [hs] at ht
  case call nnn =>
    rcases execCall_cases h with ⟨_, rfl⟩ | ⟨hsp, rfl⟩
    · simp [hs] at ht
    · cases ht
      have hfull : s.sp.val = 16 := by omega
      exact ⟨⟨nnn, rfl⟩, hfull, hfull⟩
  case skp x =>
    rcases execSkp_cases h with ⟨hk, rfl⟩ | ⟨_, -, rfl⟩
    · cases ht
      exact ⟨State.keyOf_eq_none.mp hk, x, .inl rfl, rfl⟩
    · simp [hs] at ht
  case sknp x =>
    rcases execSknp_cases h with ⟨hk, rfl⟩ | ⟨_, -, rfl⟩
    · cases ht
      exact ⟨State.keyOf_eq_none.mp hk, x, .inr rfl, rfl⟩
    · simp [hs] at ht
  case drw =>
    rcases execDrw_cases h with ⟨_, _, hfault, rfl⟩ | ⟨-, _, _, -, rfl⟩
    · cases ht
      exact faultCause_of_spriteFault hfault
    · simp [hs] at ht
  case ldB x =>
    rcases execLdB_cases h with ⟨_, ha, rfl⟩ | ⟨-, rfl⟩
    · cases ht
      obtain ⟨hlowest, hle⟩ := State.le_of_firstOutside_atI ha
      exact ⟨hlowest, .inl ⟨x, rfl, hle⟩⟩
    · simp [hs] at ht
  case ldIVx x =>
    rcases execLdIVx_cases h with ⟨_, ha, rfl⟩ | ⟨-, rfl⟩
    · cases ht
      obtain ⟨hlowest, hle⟩ := State.le_of_firstOutside_atI ha
      exact ⟨hlowest, .inr ⟨x, rfl, hle⟩⟩
    · simp [hs] at ht
  case ldVxI x =>
    rcases execLdVxI_cases h with ⟨_, ha, rfl⟩ | ⟨-, rfl⟩
    · cases ht
      obtain ⟨hlowest, hle⟩ := State.le_of_firstOutside_atI ha
      exact ⟨hlowest, .inr ⟨x, rfl, hle⟩⟩
    · simp [hs] at ht

/-- Settles O13: a fetch fault has the record of R92; any other is raised, with its own word, by the instruction at `pc`. -/
theorem faultRecordsNameTheirCause : Obligations.FaultRecordsNameTheirCause := by
  refine ⟨fun s t r hs h ht => ?_, rfl⟩
  rcases step_cases h with ⟨hf, -⟩ | ⟨-, hpc, rfl⟩ | ⟨⟨-, hpc⟩, u, hu, rfl⟩
  · exact absurd hs hf
  · rw [fetchFault_eq hpc] at ht
    cases ht
    refine ⟨rfl, .inl ⟨hpc, rfl, rfl, ?_⟩⟩
    show (if 4096 ≤ s.pc.toNat then s.pc.toNat else 4096) = max s.pc.toNat 4096
    split <;> omega
  · rw [endCycle_fault] at ht
    rcases execWord_cases hu with ⟨i, hd, hi⟩ | ⟨_, -, rfl⟩
    · have hcause := faultCause_of_exec hs hi ht
      rcases exec_fault_cases hi with hkept | ⟨kind, info, rfl⟩
      · simp [hkept, hs] at ht
      · cases ht
        exact ⟨rfl, .inr ⟨hpc, congrArg some (encode_of_decode hd), i, hd, hcause⟩⟩
    · simp [hs] at ht

end Sys2Proof.Machine
end

section
/-! SUPPORT. The host's actions: what `load` answers, the state at the first cycle after a boot, and the proofs of
`Obligations.LoadWritesTheImageOrNothing`, `Obligations.HostActionsTouchOnlyTheirPart` and
`Obligations.BootRunsTheImage`. -/

namespace Sys2Proof.Machine

/-! ## Load (R202) -/

theorem sameExcept_memWriteBlock (s : State) (a : Nat) (bs : List Byte) : sameExcept [.mem] s (s.memWriteBlock a bs) :=
  sameExcept_with_mem s _

theorem memExcept_memWriteBlock (s : State) (a : Nat) (bs : List Byte) :
    memExcept a bs.length s (s.memWriteBlock a bs) :=
  fun _ h => Memory.read_writeBlock_other _ _ _ _ h

/-- Byte `k` of a block of writes that stays in memory, read back. -/
theorem State.memRead_memWriteBlock_add (s : State) {a k : Nat} {bs : List Byte} (hin : a + bs.length ≤ 4096)
    (hk : k < bs.length) : (s.memWriteBlock a bs).memRead (a + k) = bs[k] := by
  simp [State.memRead_memWriteBlock, Memory.read_writeBlock _ _ _ hin, hk]

section
variable {bytes : List Byte}

theorem hostLoad_of_fits (h : bytes.length ≤ 3584) (s : State) :
    hostLoad bytes s = (s.memWriteBlock 512 bytes, .ok) := if_pos h

theorem hostLoad_of_too_large (h : 3584 < bytes.length) (s : State) : hostLoad bytes s = (s, .tooLarge) :=
  if_neg h.not_ge

theorem hostAct_load_of_fits (font : Font) (h : bytes.length ≤ 3584) (s : State) :
    hostAct font (.load bytes) s = (s.memWriteBlock 512 bytes, .loaded .ok) := by
  rw [hostAct, hostLoad_of_fits h]

theorem hostAct_load_of_too_large (font : Font) (h : 3584 < bytes.length) (s : State) :
    hostAct font (.load bytes) s = (s, .loaded .tooLarge) := by
  rw [hostAct, hostLoad_of_too_large h]

end

/-- Settles O58: an image that fits is one block of writes from 512, and it ends inside memory. -/
theorem loadWritesTheImageOrNothing : Obligations.LoadWritesTheImageOrNothing := by
  refine fun font bytes s => ⟨fun hfits => ?_, fun hlarge => hostAct_load_of_too_large font hlarge s⟩
  rw [hostAct_load_of_fits font hfits]
  exact ⟨rfl, fun k hk => s.memRead_memWriteBlock_add (by omega) hk, memExcept_memWriteBlock s 512 bytes,
    sameExcept_memWriteBlock s 512 bytes⟩

/-! ## Every host action (R200, R210) -/

theorem memExcept_mono {base len len' : Nat} {s t : State} (hle : len ≤ len') (h : memExcept base len s t) :
    memExcept base len' s t := fun a ha => h a (by omega)

/-- Settles O59: `load` writes a block of at most 3584 bytes, or nothing; each other action is its row of R210. -/
theorem hostActionsTouchOnlyTheirPart : Obligations.HostActionsTouchOnlyTheirPart := by
  refine fun font s => ⟨rfl, fun bytes => ?load, fun _ => rfl, rfl, rfl, rfl, rfl, rfl, rfl, rfl, rfl⟩
  case load =>
    by_cases hfits : bytes.length ≤ 3584
    · rw [hostAct_load_of_fits font hfits, if_pos hfits]
      exact ⟨rfl, memExcept_mono hfits (memExcept_memWriteBlock s 512 bytes), sameExcept_memWriteBlock s 512 bytes⟩
    · rw [hostAct_load_of_too_large font (Nat.lt_of_not_ge hfits), if_neg hfits]
      exact ⟨rfl, fun _ _ => rfl, sameExcept_refl _ s⟩

/-! ## Boot (R205, R206) -/

section
variable (font : Font) {image : List Byte} (hfits : image.length ≤ 3584) (s : State)
include hfits

theorem boot_of_fits : boot font image s = (hostReset font s).memWriteBlock 512 image := by
  rw [boot, hostLoad_of_fits hfits]

theorem boot_sameExcept : sameExcept [.mem, .drawCount] State.reset (boot font image s) := by
  rw [boot_of_fits font hfits]
  intro f hf
  simp only [List.mem_cons, List.not_mem_nil, or_false, not_or] at hf
  obtain ⟨hmem, hdraw⟩ := hf
  have hreset : agree State.reset (State.resetWith font) f := sameExcept_with_mem _ _ f (by simpa using hmem)
  have hcount : agree (State.resetWith font) (hostReset font s) f := sameExcept_with_drawCount _ _ f (by simpa using hdraw)
  exact (agree_memWriteBlock hmem).mpr (agree_trans hreset hcount)

theorem memRead_boot_image {k : Nat} (hk : k < image.length) : (boot font image s).memRead (512 + k) = image[k] := by
  rw [boot_of_fits font hfits]
  exact State.memRead_memWriteBlock_add _ (by omega) hk

/-- The image stands above the font. -/
theorem memRead_boot_font {a : Nat} (ha : a < 80) : (boot font image s).memRead a = font[a] := by
  rw [boot_of_fits font hfits, memExcept_memWriteBlock _ _ _ a (by omega)]
  change (State.resetWith font).memRead a = _
  simp [State.memRead_resetWith, ha]

theorem boot_fetchable : fetchable (boot font image s) := by
  have hfault : (boot font image s).fault = none := boot_sameExcept font hfits s .fault (by decide)
  have hpc : (boot font image s).pc = 0x200 := boot_sameExcept font hfits s .pc (by decide)
  exact ⟨hfault, by rw [hpc]; decide⟩

end

theorem wordAtPc_boot (font : Font) {high low : Byte} {rest : List Byte} (hfits : (high :: low :: rest).length ≤ 3584)
    (s : State) : (boot font (high :: low :: rest) s).wordAtPc = composeWord high low := by
  have hpc : (boot font (high :: low :: rest) s).pc = 0x200 := boot_sameExcept font hfits s .pc (by decide)
  have hhigh := memRead_boot_image font hfits s (k := 0) (by simp)
  have hlow := memRead_boot_image font hfits s (k := 1) (by simp)
  rw [State.wordAtPc, hpc]
  exact congrArg₂ composeWord hhigh hlow

/-- Settles O60: a boot leaves the reset state with the font and the image in memory, a core that can fetch, so its first
cycle is a cycle of the image's first word. -/
theorem bootRunsTheImage : Obligations.BootRunsTheImage := by
  intro font high low rest s hfits
  have hframe := boot_sameExcept font hfits s
  have hs := boot_fetchable font hfits s
  have hword := wordAtPc_boot font hfits s
  refine ⟨hframe .pc (by decide), fetch_eq_some.mpr ⟨hs.2, hword⟩, fun i t hd hi => ?cycle,
    fun a ha => memRead_boot_font font hfits s ha, hframe⟩
  case cycle =>
    rw [← hword] at hd ⊢
    exact stepRunsTheDecodedInstruction _ i t hs hd hi

end Sys2Proof.Machine
end

section
/-! SUPPORT. The optional parameters of 93: what each of the shared operations that read one answers outside its corner, and
the proof of `Obligations.ParametersMatterOnlyWhereTheSourceIsOpen`. -/

namespace Sys2Proof.Machine

section
variable (v : Config.Variant)

/-- Writes of two registers can be exchanged. -/
theorem State.setV_comm (s : State) {x y : Reg} (h : x ≠ y) (a b : Byte) :
    (s.setV x a).setV y b = (s.setV y b).setV x a := by
  simp only [State.setV, Vector.set_comm _ _ (Fin.val_ne_of_ne h)]

/-- `VF_ORDER` matters only where the result is written to VF (U8). -/
theorem setResultAndFlag_eq_normative (s : State) {x : Reg} (hx : x ≠ VF) (r : Byte) (f : Bool) :
    s.setResultAndFlag v x r f = s.setResultAndFlag Variant.normative x r f := by
  rw [setResultAndFlag_normative, State.setResultAndFlag]
  cases v.vfOrder with
  | flagLast => rfl
  | resultLast => exact State.setV_comm s hx.symm (flagByte f) r

/-- `DRW_COORD_FIRST` matters only for a coordinate in VF (U9). -/
theorem coordinate_eq_normative (s : State) {x : Reg} (hx : x ≠ VF) :
    s.coordinate v x = s.coordinate Variant.normative x := by
  simp [State.coordinate, hx]

/-- `FX1E_REDUCE_ALWAYS` matters only at the sum 0xFFF: a larger one is reduced anyway, a smaller one is its own remainder
(U10). -/
theorem reducedIndex_eq_normative {sum : Nat} (h : sum ≠ 0xFFF) :
    reducedIndex v sum = reducedIndex Variant.normative sum := by
  rw [reducedIndex_normative, reducedIndex]
  split
  case isTrue => rfl
  case isFalse hsmall =>
    simp only [indexOverflow, decide_eq_true_eq, not_or] at hsmall
    exact (Nat.mod_eq_of_lt (by omega)).symm

/-- `LOGIC_RESETS_VF` matters only in VF (U12). -/
theorem logicResult_differs_in_VF (s : State) (x : Reg) (r : Byte) :
    regsExcept [VF] ((s.setLogicResult Variant.normative x r).adv 2) ((s.setLogicResult v x r).adv 2) ∧
    sameExcept [.V] ((s.setLogicResult Variant.normative x r).adv 2) ((s.setLogicResult v x r).adv 2) := by
  rw [setLogicResult_normative, State.setLogicResult]
  split
  · refine ⟨fun k hk => ?_, fun f hf => ?_⟩
    · rw [List.mem_singleton] at hk
      simp [hk]
    · rw [List.mem_singleton] at hf
      cases f with
      | V => exact absurd rfl hf
      | mem => exact fun _ => rfl
      | _ => rfl
  · exact ⟨fun _ _ => rfl, sameExcept_refl _ _⟩

end

/-- Settles O55: each meaning that a parameter touches reads it in one shared operation. -/
theorem parametersMatterOnlyWhereTheSourceIsOpen : Obligations.ParametersMatterOnlyWhereTheSourceIsOpen := by
  refine ⟨fun v x y s hx => ?order, fun v x y n s hx hy => ?coordinates, fun v x s hsum => ?reduction,
    fun v x y s t u => ⟨?or, ?and, ?xor⟩⟩
  case order =>
    have hset (r : Byte) (f : Bool) :=
      congrArg (fun t => (.next (t.adv 2) : Host.Outcome State Fault Refusal)) (setResultAndFlag_eq_normative v s hx r f)
    exact ⟨hset _ _, hset _ _, hset _ _, hset _ _, hset _ _⟩
  case coordinates =>
    rw [execDrw, execDrwWith, execDrwWith, coordinate_eq_normative v s hx, coordinate_eq_normative v s hy]
  case reduction =>
    have hreduced := reducedIndex_eq_normative v (sum := s.indexSum x) hsum
    rw [execAddI, execAddIWith, execAddIWith, hreduced]
  all_goals
    intro ht hu
    cases ht
    cases hu
    exact logicResult_differs_in_VF v s x _

end Sys2Proof.Machine
end
